-- ==== Sys2Proof/Word.lean ====
section
/-! DEFINITION. The widths of the hardware: bytes and words (00_scope.md section 5, rule R5), and nothing else.
The hardware's two word operations (rule R80) are `BitVec`'s own: `+` is addition modulo 2^32 with the carry
discarded, `^^^` is bitwise exclusive or. -/

namespace Sys2Proof

/-- A byte: 8 bits, numbered 7 down to 0, unsigned (00_scope.md section 5). -/
abbrev Byte := BitVec 8

/-- A word: 32 bits, numbered 31 down to 0, unsigned (00_scope.md rule R5, `WORD`). -/
abbrev Word := BitVec 32

/-- A 64-bit block as the host sees it: 8 bytes, lowest index first (rules R5 `BLOCK_BYTES`, R7). -/
abbrev Block := Vector Byte 8

end Sys2Proof
end

