-- ==== Sys2Proof/Config.lean ====
section
/-! DEFINITION. What is fixed for this hardware (00_scope.md rule R5) and the values the spec leaves open
(93_implementation_defined.md Part 1). The open values are opaque: no proof can see what they are. -/

namespace Sys2Proof.Config

/-- `KEY_MIN` of the plain schedule, in bytes (rule R5). -/
def keyMin : Nat := 1

/-- `KEY_MAX` of the plain schedule, in bytes (rule R5). -/
def keyMax : Nat := 56

/-- `BLOCK_BYTES` (rule R5). -/
def blockBytes : Nat := 8

/-- `PAD_XOR` (rule R5). -/
def padXor : Byte := 0xCC

/-- `CBC_MIN_LEN`: the shortest CBC buffer, in bytes (rule R5). -/
def cbcMinLen : Nat := 16

/-- FREE VALUE (log entry 9). What the n-th draw gives for a host read of `CMD`: "A read returns any value"
(10_state.md rule R16, 93 U7). -/
opaque cmdReadValue : Nat → Byte

/-- FREE VALUE (log entry 2). `P[i]` after the reset that is the n-th draw: "no value (unspecified)"
(10_state.md rule R21, 93 U6). First argument n, second i. -/
opaque resetSubkey : Nat → Nat → Word

/-- FREE VALUE (log entry 2). `S[k][i]` after the reset that is the n-th draw (rule R21, 93 U6).
Arguments n, k, i. -/
opaque resetSbox : Nat → Nat → Nat → Word

/-- FREE VALUE (log entry 2). `IV[i]` after the reset that is the n-th draw (rule R21, 93 U6).
First argument n, second i. -/
opaque resetIv : Nat → Nat → Byte

/-- FREE VALUE (log entry 10). What a command abandoned by the reset that is the n-th draw left in `DST`, as a
list of byte writes of any length: "the bytes of `DST` are unspecified (any of them may or may not have been
written)" (70_reset_and_hazards.md rule R201, 93 U8). -/
opaque abandonedDst : Nat → List (Nat × Byte)

end Sys2Proof.Config
end

