-- ==== Sys2Proof/Syntax.lean ====
section
/-! DEFINITION. The seven commands (30_encoding.md rules R60, R61) and the script notation of rule R64. -/

namespace Sys2Proof

/-- The commands: one constructor per row of the opcode table (rule R61). A command has no register fields, no
immediates, no mode bits and no prefixes (rule R60): all operands are in length registers and host buffers
(rule R62), so no constructor has an argument. -/
inductive Instr where
  | newc
  | newsc
  | blksz
  | encb
  | decb
  | enccbc
  | deccbc
  deriving DecidableEq, Repr

/-- One line of the spec's textual notation (rule R64): a command with its operands written beside it. For ENCCBC
the RNG's answer stands in the line too; it "is not an operand but the answer the RNG gives during the command". `dstlen=<n>` may be omitted. -/
inductive Script where
  | newc (key : List Byte)
  | newsc (key salt : List Byte)
  | blksz
  | encb (src : List Byte) (dstlen : Option Nat)
  | decb (src : List Byte) (dstlen : Option Nat)
  | enccbc (src rngBytes : List Byte) (rngFail : Bool)
  | deccbc (src : List Byte)
  deriving DecidableEq, Repr

/-- The command a script line issues. -/
def Script.instr : Script → Instr
  | .newc _ => .newc
  | .newsc _ _ => .newsc
  | .blksz => .blksz
  | .encb _ _ => .encb
  | .decb _ _ => .decb
  | .enccbc _ _ _ => .enccbc
  | .deccbc _ => .deccbc

end Sys2Proof
end

