-- ==== Sys2Proof/Machine/State.lean ====
section
/-! DEFINITION. The state of the machine: one CipherState and the registers through which the host drives it
(10_state.md), the host's four buffers (rule R18), and the pending inputs of the host and of the RNG
(00_scope.md rule R6, 70_reset_and_hazards.md rule R213). -/

namespace Sys2Proof.Machine

/-- A byte buffer of the host, indexed from 0 (rule R18): the bytes that differ from what an unlisted index reads
as, by strictly rising index (`Memory.wf` in Machine/Ops.lean). -/
abbrev Memory := List Host.Cell

/-- The two word memories a construction fills: the subkey array `P[0..17]` (rule R10) and the substitution tables
`S[0..3][0..255]` (rule R12). -/
structure Tables where
  P : Vector Word 18
  S : Vector (Vector Word 256) 4
  deriving DecidableEq, Repr

/-- The values of the FSM register `STATE` (rule R15). There is no fourth: value 3 is never produced (93 U9). -/
inductive Fsm where
  | unkeyed
  | keyed
  | faulted
  deriving DecidableEq, Repr

/-- The host's buffers (rule R18). -/
inductive Buf where
  | key
  | salt
  | src
  | dst
  deriving DecidableEq, Repr

/-- How the platform lays out `SRC` and `DST` (20_memory.md rule R45): as two storages of their own, or in one storage
from two places on, so that they overlap wholly or partly. The core neither sees nor changes it. -/
inductive Wiring where
  | distinct
  | shared (srcBase dstBase : Nat)
  deriving DecidableEq, Repr

/-- The length registers 3 to 6, which the host reads and writes (rule R16). -/
inductive LenReg where
  | keylen
  | saltlen
  | srclen
  | dstlen
  deriving DecidableEq, Repr

/-- The registers 1, 2, 7, 8, 9, which the host can only read (rule R16). -/
inductive RoReg where
  | status
  | errinfo
  | outlen
  | state
  | result
  deriving DecidableEq, Repr

/-- The ten host-visible registers (rule R16). -/
inductive HostReg where
  | cmd
  | len (r : LenReg)
  | ro (r : RoReg)
  deriving DecidableEq, Repr

/-- The moves of the host (rule R213): "A model gives the host exactly these moves and no others". -/
inductive HostMove where
  /-- Write bytes to a host buffer from an index on. -/
  | writeBuf (b : Buf) (off : Nat) (bytes : List Byte)
  /-- Write one of the registers 3 to 6. -/
  | writeLen (r : LenReg) (v : Nat)
  /-- Write a read-only register: "has no effect" (rule R16, 93 U16). -/
  | writeReadOnly (r : RoReg) (v : Nat)
  /-- Write a code to `CMD`: "A write starts the command" (rule R16). -/
  | writeCmd (code : Byte)
  /-- Read a register. -/
  | readReg (r : HostReg)
  /-- Read one byte of `DST`. -/
  | readDst (i : Nat)
  /-- Wait for the executing command to complete. -/
  | await
  /-- Reset the core, whether or not a command is executing (rules R200, R201). -/
  | reset
  deriving DecidableEq, Repr

/-- An answer of the random-byte source to `RngRead(8)` (43_cbc.md rule R150): the first `n` of `bytes` were
delivered (the others do not exist and nothing reads them), and `fail` says that the source reported a failure. -/
structure RngAnswer where
  bytes : Block
  n : Fin 9
  fail : Bool
  deriving DecidableEq, Repr

/-- The state. The fields from `host` on are not registers of the core: `host` and `rng` are the inputs still to
come, `readData` is what the host has read, `draws` numbers the free values (log entries 6, 8, 11, 12). -/
structure State where
  /-- `P` and `S` (rules R10, R12). -/
  tab : Tables
  /-- The IV register `IV[0..7]` (rule R13). -/
  iv : Block
  /-- Register 8, `STATE` (rule R15). -/
  fsm : Fsm
  /-- Register 0, `CMD`: the code written, while its command is executing; none while the core is idle (rules R16,
  R189). -/
  cmd : Option Byte
  /-- Register 1, `STATUS` (rules R16, R170). -/
  status : Byte
  /-- Register 2, `ERRINFO`. -/
  errinfo : Nat
  /-- Register 3, `KEYLEN`. -/
  keylen : Nat
  /-- Register 4, `SALTLEN`. -/
  saltlen : Nat
  /-- Register 5, `SRCLEN`. -/
  srclen : Nat
  /-- Register 6, `DSTLEN`. -/
  dstlen : Nat
  /-- Register 7, `OUTLEN`. -/
  outlen : Nat
  /-- Register 9, `RESULT`. -/
  result : Word
  /-- The host buffer `KEY` (rule R18). -/
  key : Memory
  /-- The host buffer `SALT`. -/
  salt : Memory
  /-- The storage of the host buffers `SRC` and `DST`; `State.srcByte` and `State.dstByte` are their bytes. -/
  data : Memory
  /-- Where `SRC` and `DST` stand in `data` (20_memory.md rule R45). -/
  wiring : Wiring
  /-- The host's moves still to come, in order (rule R213). -/
  host : List HostMove
  /-- The answers the RNG will give, in order; empty: it never answers again (rules R150, R190). -/
  rng : List RngAnswer
  /-- The model's own: the value the host's last read returned. -/
  readData : Nat
  /-- The model's own: how many free values have been drawn. -/
  draws : Nat
  deriving DecidableEq, Repr

/-- No fault is ever raised: every outcome the spec gives a command is a next state, the fatal one included
(60_exceptions.md rule R177 writes STATUS, ERRINFO, OUTLEN and STATE). The type has no constructor, so that no
meaning can stop a run; safe (log entry 13). -/
inductive Fault where
  deriving DecidableEq, Repr

/-- The one refusal, of a command that has no meaning. Every command has one, so no arm of exec raises it. -/
inductive Refusal where
  /-- Raised by an arm of `exec` for a command that is not modelled; safe. No arm raises it. -/
  | notModelled (mnemonic : String)
  deriving DecidableEq, Repr

/-- The tables before any construction. The spec gives `P` and `S` no value at reset (rule R21); zero is a DESIGN
CHOICE (log entry 1, unsafe). -/
def Tables.zero : Tables where
  P := Vector.replicate 18 0
  S := Vector.replicate 4 (Vector.replicate 256 0)

/-- The machine right after reset (10_state.md rule R21): `Unkeyed`, STATUS 0x00, the other registers the host can
read 0, no command executing. `P`, `S` and `IV`, for which rule R21 gives no value, are zero (DESIGN CHOICE, log
entry 1, unsafe). The host's buffers list nothing (log entry 3), `SRC` and
`DST` are two storages (log entry 15), and no move and no RNG answer is pending. -/
def State.reset : State where
  tab := Tables.zero
  iv := #v[0, 0, 0, 0, 0, 0, 0, 0]
  fsm := .unkeyed
  cmd := none
  status := 0x00
  errinfo := 0
  keylen := 0
  saltlen := 0
  srclen := 0
  dstlen := 0
  outlen := 0
  result := 0
  key := []
  salt := []
  data := []
  wiring := .distinct
  host := []
  rng := []
  readData := 0
  draws := 0

end Sys2Proof.Machine
end

