-- ==== Sys2Proof/Machine/Flags.lean ====
section
/-! DEFINITION. The STATUS register. The hardware has no condition codes, no carry and no overflow flag
(10_state.md rule R14): the only status a command leaves is the STATUS code of 60_exceptions.md rule R170. -/

namespace Sys2Proof.Machine

/-- The failures of a command (rule R170). -/
inductive Err where
  | keySize
  | malformedInput
  | rngFailure
  | notKeyed
  | illegalCommand
  | bufferContract
  deriving DecidableEq, Repr

/-- The STATUS value of normal completion (rule R170, `OK`). -/
def statusOk : Byte := 0x00

/-- The STATUS value of a failure (rule R170). -/
def Err.status : Err → Byte
  | .keySize => 0x01
  | .malformedInput => 0x02
  | .rngFailure => 0x03
  | .notKeyed => 0x04
  | .illegalCommand => 0x05
  | .bufferContract => 0x81

/-- The names of rule R170's table; no other value is written to STATUS. -/
def statusName (status : Byte) : Option String :=
  if status = 0x00 then some "OK"
  else if status = 0x01 then some "KEY_SIZE"
  else if status = 0x02 then some "MALFORMED_INPUT"
  else if status = 0x03 then some "RNG_FAILURE"
  else if status = 0x04 then some "NOT_KEYED"
  else if status = 0x05 then some "ILLEGAL_COMMAND"
  else if status = 0x81 then some "BUFFER_CONTRACT"
  else none

/-- STATUS bit[7], `FATAL`: 1 when the code is a fatal one (10_state.md rule R16). -/
def statusFatal (status : Byte) : Bool := status.getLsbD 7

/-- STATUS bits[6:0], `CODE` (10_state.md rule R16). -/
def statusCode (status : Byte) : BitVec 7 := status.extractLsb' 0 7

/-- The values STATUS can hold: "No other value is ever written to STATUS" (rule R170). -/
def statusLegal (status : Byte) : Bool :=
  status == 0x00 || status == 0x01 || status == 0x02 || status == 0x03 || status == 0x04 || status == 0x05 ||
    status == 0x81

/-- The encoding of `STATE`, bits[1:0] (10_state.md rules R15, R16 register 8). -/
def Fsm.code : Fsm → BitVec 2
  | .unkeyed => 0
  | .keyed => 1
  | .faulted => 2

end Sys2Proof.Machine
end

