-- ==== Sys2Proof/Machine/Ops.lean ====
section
/-! DEFINITION. The named operations every command is built from: the host buffers, the registers, the end of a
command (normal, by an error, by the refusal in `Faulted`), and the common frame. -/

namespace Sys2Proof.Machine

/-! ## Host buffers (20_memory.md) -/

/-- What a buffer byte that nothing has written reads as. The spec leaves the contents of the host's buffers
unspecified (10_state.md rule R21); 0x00 is a DESIGN CHOICE (log entry 3, unsafe). -/
def Memory.unlisted : Byte := 0x00

/-- The byte of a buffer at an index. -/
def Memory.read : Memory → Nat → Byte
  | [], _ => Memory.unlisted
  | (a, v) :: m, i => if a = i then v else Memory.read m i

/-- Writes one byte of a buffer, keeping the canonical form. -/
def Memory.write : Memory → Nat → Byte → Memory
  | [], i, v => if v = Memory.unlisted then [] else [(i, v)]
  | (a, w) :: m, i, v =>
    if i < a then (if v = Memory.unlisted then (a, w) :: m else (i, v) :: (a, w) :: m)
    else if i = a then (if v = Memory.unlisted then m else (i, v) :: m)
    else (a, w) :: Memory.write m i v

/-- The entries of a buffer are all at `lo` or above, strictly rising, and none equals an unlisted byte. -/
def Memory.wfFrom : Nat → Memory → Bool
  | _, [] => true
  | lo, (a, v) :: m => decide (lo ≤ a) && decide (v ≠ Memory.unlisted) && Memory.wfFrom (a + 1) m

/-- The canonical form of a buffer: indices strictly rising, no entry equal to an unlisted byte. -/
def Memory.wf (m : Memory) : Bool := Memory.wfFrom 0 m

/-- The place in the common storage of byte `i` of `SRC`: even places while the buffers are distinct. -/
def Wiring.srcAddr : Wiring → Nat → Nat
  | .distinct, i => 2 * i
  | .shared srcBase _, i => srcBase + i

/-- The place in the common storage of byte `i` of `DST`: odd places while the buffers are distinct. -/
def Wiring.dstAddr : Wiring → Nat → Nat
  | .distinct, i => 2 * i + 1
  | .shared _ dstBase, i => dstBase + i

/-- `SRC[i]`. -/
def State.srcByte (s : State) (i : Nat) : Byte := s.data.read (s.wiring.srcAddr i)

/-- `DST[i]`. -/
def State.dstByte (s : State) (i : Nat) : Byte := s.data.read (s.wiring.dstAddr i)

/-- The storage a host buffer stands in. -/
def State.bufMem (s : State) : Buf → Memory
  | .key => s.key
  | .salt => s.salt
  | .src => s.data
  | .dst => s.data

/-- Where byte `i` of a host buffer stands in its storage. -/
def State.bufAddr (s : State) : Buf → Nat → Nat
  | .key, i => i
  | .salt, i => i
  | .src, i => s.wiring.srcAddr i
  | .dst, i => s.wiring.dstAddr i

/-- Byte `i` of a host buffer. -/
def State.bufByte (s : State) (b : Buf) (i : Nat) : Byte := (s.bufMem b).read (s.bufAddr b i)

/-- The state with new contents of the storage of a host buffer. -/
def State.setBufMem (s : State) : Buf → Memory → State
  | .key, m => { s with key := m }
  | .salt, m => { s with salt := m }
  | .src, m => { s with data := m }
  | .dst, m => { s with data := m }

/-- Writes bytes, lowest index first, to the places that `addr` gives the indices from `off` on. -/
def memWriteAt (addr : Nat → Nat) : Memory → Nat → List Byte → Memory
  | m, _, [] => m
  | m, off, b :: bs => memWriteAt addr (m.write (addr off) b) (off + 1) bs

/-- `MemWrite(buf, off, n, bytes)`: writes the bytes to `buf[off]` on, lowest index first (00_scope.md section 5). -/
def State.memWrite (s : State) (b : Buf) (off : Nat) (bytes : List Byte) : State :=
  s.setBufMem b (memWriteAt (s.bufAddr b) (s.bufMem b) off bytes)

/-- `MemRead(buf, off, n)`: the bytes `buf[off]` to `buf[off+n-1]`, lowest index first (00_scope.md section 5). -/
def State.memRead (s : State) (b : Buf) (off n : Nat) : List Byte :=
  (List.range n).map fun i => s.bufByte b (off + i)

/-! ## Registers (10_state.md rule R16) -/

/-- The number of a register in rule R16's table. -/
def HostReg.number : HostReg → Nat
  | .cmd => 0
  | .ro .status => 1
  | .ro .errinfo => 2
  | .len .keylen => 3
  | .len .saltlen => 4
  | .len .srclen => 5
  | .len .dstlen => 6
  | .ro .outlen => 7
  | .ro .state => 8
  | .ro .result => 9

/-- The value of a length register. -/
def State.lenReg (s : State) : LenReg → Nat
  | .keylen => s.keylen
  | .saltlen => s.saltlen
  | .srclen => s.srclen
  | .dstlen => s.dstlen

/-- A host write to a length register: "Any value is legal" (rule R16). -/
def State.setLenReg (s : State) : LenReg → Nat → State
  | .keylen, v => { s with keylen := v }
  | .saltlen, v => { s with saltlen := v }
  | .srclen, v => { s with srclen := v }
  | .dstlen, v => { s with dstlen := v }

/-- The value of a read-only register. -/
def State.roReg (s : State) : RoReg → Nat
  | .status => s.status.toNat
  | .errinfo => s.errinfo
  | .outlen => s.outlen
  | .state => s.fsm.code.toNat
  | .result => s.result.toNat

/-! ## How a command ends -/

/-- Normal completion (42_cipher_commands.md rule R126): "writes `STATUS <- 0x00` (OK) and `ERRINFO <- 0`", and
`OUTLEN`, "the number of bytes it put in `DST`, or 0". The core is idle again. -/
def complete (outlen : Nat) (s : State) : State :=
  { s with status := statusOk, errinfo := 0, outlen := outlen, cmd := none }

/-- Taking an exception: `raise E(info)` (60_exceptions.md rule R171), the hardware's only "trap entry" (rule
R182). "`STATUS <- code of E`; `ERRINFO <- info`; `OUTLEN <- 0`; nothing else is written". Control stays with the
host; the core is idle again. -/
def raise (e : Err) (info : Nat) (s : State) : State :=
  { s with status := e.status, errinfo := info, outlen := 0, cmd := none }

/-- `raise_fatal E(info)`: "does the same and also `STATE <- Faulted`" (rule R171). There is no return from it but
reset, and a recoverable error needs none (rule R183): so no return operation stands beside these two. -/
def raiseFatal (e : Err) (info : Nat) (s : State) : State :=
  { raise e info s with fsm := .faulted }

/-- What a command meets in `Faulted` (rule R178): it is "refused: nothing at all is written"; the command has
ended (70_reset_and_hazards.md rule R214) and the core is idle again. -/
def refuseFaulted (s : State) : State := { s with cmd := none }

/-! ## The common frame (60_exceptions.md rule R179) -/

/-- Steps 1 and 3 to 5 of rule R179 around a command's own rule `body`: "the first test that fires decides the
outcome". Step 2, the code check, has been passed: a command was decoded. -/
def inFrame (needsKey : Bool) (body : State → State) (s : State) : Host.Outcome State Fault Refusal :=
  if s.fsm = .faulted then .next (refuseFaulted s)
  else if needsKey = true ∧ s.fsm = .unkeyed then .next (raise .notKeyed 0 s)
  else .next (body s)

/-- A reserved code: steps 1 and 2 of rule R179. "`raise ILLEGAL_COMMAND(c)`", `ERRINFO` "is the code" (rule
R176). -/
def execReserved (code : Byte) (s : State) : Host.Outcome State Fault Refusal :=
  if s.fsm = .faulted then .next (refuseFaulted s) else .next (raise .illegalCommand code.toNat s)

end Sys2Proof.Machine
end

