-- ==== Sys2Proof/Machine/Operands.lean ====
section
/-! DEFINITION. The operand forms (30_encoding.md rule R62) and the conversions between bytes and words
(20_memory.md rule R40): `BE32`, `UNBE32`, the circular reader `NextWord`, blocks, and the byte lists of the CBC
work buffer. -/

namespace Sys2Proof.Machine

/-- `BE32(b0, b1, b2, b3)`: the word `b0 || b1 || b2 || b3` (00_scope.md section 5). -/
def be32 (b0 b1 b2 b3 : Byte) : Word := b0 ++ b1 ++ b2 ++ b3

/-- Byte `w[31:24]` of a word, the most significant. -/
def byte3 (w : Word) : Byte := w.extractLsb' 24 8

/-- Byte `w[23:16]` of a word. -/
def byte2 (w : Word) : Byte := w.extractLsb' 16 8

/-- Byte `w[15:8]` of a word. -/
def byte1 (w : Word) : Byte := w.extractLsb' 8 8

/-- Byte `w[7:0]` of a word, the least significant. -/
def byte0 (w : Word) : Byte := w.extractLsb' 0 8

/-- The word pair `(L, R)` of a block (00_scope.md rule R7). -/
def blockWords (b : Block) : Word × Word := (be32 b[0] b[1] b[2] b[3], be32 b[4] b[5] b[6] b[7])

/-- `UNBE32(L) || UNBE32(R)`: the block of a word pair (00_scope.md section 5, 20_memory.md rule R40 (c)). -/
def wordsBlock (w : Word × Word) : Block :=
  #v[byte3 w.1, byte2 w.1, byte1 w.1, byte0 w.1, byte3 w.2, byte2 w.2, byte1 w.2, byte0 w.2]

/-- One turn of `NextWord`'s loop (00_scope.md rule R8): `d <- d[23:0] || buf[j]`, `j <- (j + 1) mod n`. -/
def nextByte (buf : Memory) (n : Nat) (dj : Word × Nat) : Word × Nat :=
  (dj.1.extractLsb' 0 24 ++ buf.read dj.2, (dj.2 + 1) % n)

/-- `NextWord(buf, n, j)` (00_scope.md rule R8): four turns of the loop from `d = 0`. -/
def nextWord (buf : Memory) (n j : Nat) : Word × Nat :=
  nextByte buf n (nextByte buf n (nextByte buf n (nextByte buf n (0, j))))

/-! ## Blocks and the CBC work buffer -/

/-- Byte `i` of a byte list. No rule reads at or beyond the list's length (20_memory.md rule R47). -/
def byteAt (bs : List Byte) (i : Nat) : Byte := bs.getD i 0

/-- The 8 bytes of a byte list from an offset on. -/
def blockAt (bs : List Byte) (off : Nat) : Block :=
  #v[byteAt bs off, byteAt bs (off + 1), byteAt bs (off + 2), byteAt bs (off + 3), byteAt bs (off + 4),
    byteAt bs (off + 5), byteAt bs (off + 6), byteAt bs (off + 7)]

/-- A byte list with the 8 bytes from an offset on replaced. -/
def putBlock (bs : List Byte) (off : Nat) (b : Block) : List Byte := bs.take off ++ b.toList ++ bs.drop (off + 8)

/-- The exclusive or of two blocks, byte by byte. -/
def xorBlock (a b : Block) : Block :=
  #v[a[0] ^^^ b[0], a[1] ^^^ b[1], a[2] ^^^ b[2], a[3] ^^^ b[3], a[4] ^^^ b[4], a[5] ^^^ b[5], a[6] ^^^ b[6],
    a[7] ^^^ b[7]]

/-! ## Operands of the commands (30_encoding.md rule R62) -/

/-- `SRC[0..SRCLEN-1]`, the operand of the CBC commands. -/
def State.srcBytes (s : State) : List Byte := s.memRead .src 0 s.srclen

/-- `SRC[0..7]`, the operand of the block commands. -/
def State.srcBlock (s : State) : Block := blockAt (s.memRead .src 0 8) 0

end Sys2Proof.Machine
end

