-- ==== Sys2Proof/Machine/Transform.lean ====
section
/-! DEFINITION. s_box_substitution_unit and feistel_round_transform (40_round_transform.md rules R80 to R88). All
are pure functions of the tables and the block: they write nothing and raise nothing. -/

namespace Sys2Proof.Machine

/-- `S[k][i]`. -/
def Tables.sbox (t : Tables) (k : Fin 4) (i : Byte) : Word := t.S[k][i.toNat]'i.isLt

/-- The substitution unit `F(b)` (rule R81): "`((s0 + s1) XOR s2) + s3`", the most significant byte of `b` indexing
table 0. The grouping is part of the definition (rules R80, R87). -/
def F (t : Tables) (b : Word) : Word :=
  ((t.sbox 0 (byte3 b) + t.sbox 1 (byte2 b)) ^^^ t.sbox 2 (byte1 b)) + t.sbox 3 (byte0 b)

/-- `Round(a, b, k)` (rule R82). -/
def round (t : Tables) (a b k : Word) : Word := a ^^^ F t b ^^^ k

/-- Round `n` of `EncryptWords` on `(xl, xr)` (rule R83): `xr` is active when `n` is odd, `xl` when it is even. -/
def encRound (t : Tables) (x : Word × Word) (n : Fin 18) : Word × Word :=
  if n.val % 2 = 1 then (x.1, round t x.2 x.1 t.P[n]) else (round t x.1 x.2 t.P[n], x.2)

/-- Round `n` of `DecryptWords` on `(xl, xr)` (rule R84): `xr` is active when `n` is even, `xl` when it is odd. -/
def decRound (t : Tables) (x : Word × Word) (n : Fin 18) : Word × Word :=
  if n.val % 2 = 0 then (x.1, round t x.2 x.1 t.P[n]) else (round t x.1 x.2 t.P[n], x.2)

/-- The round numbers `1..16` in rising order (rule R83; `ROUNDS = 16`, 00_scope.md rule R9). -/
def roundNumbers : List (Fin 18) := [1, 2, 3, 4, 5, 6, 7, 8, 9, 10, 11, 12, 13, 14, 15, 16]

/-- `EncryptWords(L, R)` (rule R83): whitening of the left word with `P[0]`, rounds 1 to 16, whitening of `xr` with
`P[17]`, and the output words swapped. -/
def encryptWords (t : Tables) (w : Word × Word) : Word × Word :=
  let x := roundNumbers.foldl (encRound t) (w.1 ^^^ t.P[0], w.2)
  (x.2 ^^^ t.P[17], x.1)

/-- `DecryptWords(L, R)` (rule R84): the same structure with the subkey order reversed. -/
def decryptWords (t : Tables) (w : Word × Word) : Word × Word :=
  let x := roundNumbers.reverse.foldl (decRound t) (w.1 ^^^ t.P[17], w.2)
  (x.2 ^^^ t.P[0], x.1)

/-- `EncryptBlock(b[0..7])` (rule R86). -/
def encryptBlock (t : Tables) (b : Block) : Block := wordsBlock (encryptWords t (blockWords b))

/-- `DecryptBlock(b[0..7])` (rule R86). -/
def decryptBlock (t : Tables) (b : Block) : Block := wordsBlock (decryptWords t (blockWords b))

end Sys2Proof.Machine
end

