-- ==== Sys2Proof/Machine/BlockCommands.lean ====
section
/-! DEFINITION. ENCB and DECB (42_cipher_commands.md rules R124, R125). -/

namespace Sys2Proof.Machine

/-- The own rule of ENCB and DECB (rules R124, R125), `f` being the block transform: both lengths must be 8, `SRCLEN`
checked first; all 8 bytes of `SRC` are read before `DST` is written (20_memory.md rule R45). -/
def blockBody (f : Tables → Block → Block) (s : State) : State :=
  if s.srclen ≠ Config.blockBytes then raiseFatal .bufferContract s.srclen s
  else if s.dstlen ≠ Config.blockBytes then raiseFatal .bufferContract s.dstlen s
  else complete Config.blockBytes (s.memWrite .dst 0 (f s.tab s.srcBlock).toList)

/-- ENCB, code 0x04 (rule R124). Allowed in `Keyed` only. -/
def execEncb (s : State) : Host.Outcome State Fault Refusal := inFrame true (blockBody encryptBlock) s

/-- DECB, code 0x05 (rule R125). Allowed in `Keyed` only. -/
def execDecb (s : State) : Host.Outcome State Fault Refusal := inFrame true (blockBody decryptBlock) s

end Sys2Proof.Machine
end

