-- ==== Sys2Proof/Machine/Cbc.lean ====
section
/-! DEFINITION. The CBC layer and custom_padding_and_iv_handler (43_cbc.md). The work buffer `BUF` is a byte list
that lives inside one command (10_state.md rule R19). -/

namespace Sys2Proof.Machine

/-! ## Padder and unpadder -/

/-- The pad count for `n` plaintext bytes (rule R142). -/
def padCount (n : Nat) : Nat := 8 - n % 8

/-- The pad byte (rule R141): the byte of `BUF` just before the padding, XOR 0xCC. `buf` holds the IV and then the `n`
plaintext bytes; for `n = 0` the seed is therefore `IV[7]` (the spec's decision D11, log entry 14). -/
def padByte (buf : List Byte) (n : Nat) : Byte := byteAt buf (7 + n) ^^^ Config.padXor

/-- The work buffer of ENCCBC (rule R153): IV, plaintext, padding. -/
def buildBuf (iv : Block) (src : List Byte) : List Byte :=
  let buf := iv.toList ++ src
  buf ++ List.replicate (padCount src.length) (padByte buf src.length)

/-- The scan of `Unpad` (rule R144): steps `e` down while `e > 8` and `BUF[e-1] = v`. -/
def unpadScan (buf : List Byte) (v : Byte) : Nat → Nat
  | 0 => 0
  | e + 1 => if 8 < e + 1 ∧ byteAt buf e = v then unpadScan buf v e else e + 1

/-- `Unpad(BUF, len)` (rule R144): the end offset of the plaintext. -/
def unpad (buf : List Byte) (len : Nat) : Nat := unpadScan buf (byteAt buf (len - 1)) len

/-! ## The chaining loops -/

/-- The chaining loop of ENCCBC (rule R155) for `k` blocks from offset `off` on: each block of `BUF` is XORed with the
8 bytes before it and encrypted in place. -/
def encLoop (t : Tables) : Nat → Nat → List Byte → List Byte
  | 0, _, buf => buf
  | k + 1, off, buf =>
    encLoop t k (off + 8) (putBlock buf off (encryptBlock t (xorBlock (blockAt buf off) (blockAt buf (off - 8)))))

/-- The block loop of DECCBC (rule R162) for `k` blocks from offset `off` on, with the chaining value `chain`. -/
def decLoop (t : Tables) : Nat → Nat → Block → List Byte → List Byte
  | 0, _, _, buf => buf
  | k + 1, off, chain, buf =>
    let saved := blockAt buf off
    decLoop t k (off + 8) saved (putBlock buf off (xorBlock (decryptBlock t saved) chain))

/-- The result of ENCCBC (rules R153, R155): the whole work buffer after the chaining loop. -/
def cbcEncrypt (t : Tables) (iv : Block) (src : List Byte) : List Byte :=
  encLoop t (src.length / 8 + 1) 8 (buildBuf iv src)

/-- The work buffer of DECCBC after the block loop (rules R161, R162); the first chaining value is its first block. -/
def cbcDecryptBuf (t : Tables) (src : List Byte) : List Byte :=
  decLoop t (src.length / 8 - 1) 8 (blockAt src 0) src

/-- The result of DECCBC (rule R165): `BUF[8 .. e-1]` with `e = Unpad(BUF, SRCLEN)`. -/
def cbcDecrypt (t : Tables) (src : List Byte) : List Byte :=
  let buf := cbcDecryptBuf t src
  (buf.take (unpad buf src.length)).drop 8

/-! ## The commands -/

/-- An answer of the RNG that serves (rules R151, R152): all 8 bytes and no reported failure. -/
def RngAnswer.good (a : RngAnswer) : Bool := decide (a.n.val = 8) && !a.fail

/-- ENCCBC's rule once the RNG has answered (rules R151 to R156). -/
def enccbcAnswered (a : RngAnswer) (s : State) : State :=
  if a.good then
    let out := cbcEncrypt s.tab a.bytes s.srcBytes
    complete out.length ({ s with iv := a.bytes }.memWrite .dst 0 out)
  else raise .rngFailure a.n.val s

/-- ENCCBC's own rule (rule R156): it asks the RNG once; while no answer comes the command goes on executing and
nothing is written (60_exceptions.md rule R190). The answer it takes is used up (20_memory.md rule R46). -/
def enccbcBody (s : State) : State :=
  match s.rng with
  | [] => s
  | a :: rest => enccbcAnswered a { s with rng := rest }

/-- DECCBC's own rule (rule R166), with the length check of rule R160 first. -/
def deccbcBody (s : State) : State :=
  if s.srclen % 8 ≠ 0 ∨ s.srclen < Config.cbcMinLen then raise .malformedInput s.srclen s
  else
    let src := s.srcBytes
    let out := cbcDecrypt s.tab src
    complete out.length ({ s with iv := blockAt src 0 }.memWrite .dst 0 out)

/-- ENCCBC, code 0x06 (rule R156). Allowed in `Keyed` only. -/
def execEnccbc (s : State) : Host.Outcome State Fault Refusal := inFrame true enccbcBody s

/-- DECCBC, code 0x07 (rule R166). Allowed in `Keyed` only. -/
def execDeccbc (s : State) : Host.Outcome State Fault Refusal := inFrame true deccbcBody s

end Sys2Proof.Machine
end

