-- ==== Sys2Proof/Machine/Schedule.lean ====
section
/-! DEFINITION. key_schedule_engine (41_key_schedule.md rules R101 to R110). -/

namespace Sys2Proof.Machine

/-- `LoadTables()` (rule R101): all 18 entries of `P` and all 1024 entries of `S` from the Static Tables, "so nothing
of a previous key survives". -/
def loadTables : Tables where
  P := pInit
  S := sInit

/-- One turn of `KeyXorPass`'s loop (rule R102), on the tables and the key cursor `j`. -/
def keyXorStep (key : Memory) (n : Nat) (x : Tables × Nat) (i : Fin 18) : Tables × Nat :=
  let dj := nextWord key n x.2
  ({ x.1 with P := x.1.P.set i (x.1.P[i] ^^^ dj.1) }, dj.2)

/-- `KeyXorPass()` (rule R102) with `KEYLEN = n`: the 18 words of the circularly read key, XORed into `P` in order.
`S` is not touched. -/
def keyXorPass (key : Memory) (n : Nat) (t : Tables) : Tables :=
  ((List.finRange 18).foldl (keyXorStep key n) (t, 0)).1

/-- What an expansion carries from one block encryption to the next: the tables being built, the in-flight block
`(l, r)` (rule R103) and the salt cursor `js` (rule R105; the plain expansion does not use it). -/
structure Flight where
  tab : Tables
  l : Word
  r : Word
  js : Nat
  deriving DecidableEq, Repr

/-- `(l, r) <- EncryptWords(l, r)` on the current `P` and `S` (rule R104, 20_memory.md rule R53). -/
def Flight.encrypt (f : Flight) : Flight :=
  let w := encryptWords f.tab (f.l, f.r)
  { f with l := w.1, r := w.2 }

/-- `P[2i] <- l ; P[2i+1] <- r` (rule R104). -/
def Flight.storeP (f : Flight) (i : Fin 9) : Flight :=
  { f with tab := { f.tab with P := (f.tab.P.set (2 * i.val) f.l).set (2 * i.val + 1) f.r } }

/-- `S[k][2i] <- l ; S[k][2i+1] <- r` (rule R104). -/
def Flight.storeS (f : Flight) (k : Fin 4) (i : Fin 128) : Flight :=
  { f with tab := { f.tab with S := f.tab.S.set k ((f.tab.S[k].set (2 * i.val) f.l).set (2 * i.val + 1) f.r) } }

/-- The salt folded into the in-flight block before an encryption (rule R106): the next salt word into `l`, the one
after it into `r`. -/
def Flight.mixSalt (salt : Memory) (n : Nat) (f : Flight) : Flight :=
  let d := nextWord salt n f.js
  let e := nextWord salt n d.2
  { f with l := f.l ^^^ d.1, r := f.r ^^^ e.1, js := e.2 }

/-- The loops common to `PlainExpand` and `SaltedExpand` (rules R104, R106): 9 encryptions for `P`, then 128 for each
of `S[0]` to `S[3]`, with `mix` applied to the in-flight block before every encryption. -/
def expandLoop (mix : Flight → Flight) (f : Flight) : Flight :=
  let g := (List.finRange 9).foldl (fun f i => (mix f).encrypt.storeP i) f
  (List.finRange 4).foldl (fun f k => (List.finRange 128).foldl (fun f i => (mix f).encrypt.storeS k i) f) g

/-- `PlainExpand()` (rule R104), "starting from an all-zero 64-bit block" (rule R103). -/
def plainExpand (t : Tables) : Tables := (expandLoop id ⟨t, 0, 0, 0⟩).tab

/-- `SaltedExpand()` (rule R106) with `SALTLEN = n`: the salt cursor starts at 0 and is never reset (rule R105). -/
def saltedExpand (salt : Memory) (n : Nat) (t : Tables) : Tables :=
  (expandLoop (Flight.mixSalt salt n) ⟨t, 0, 0, 0⟩).tab

/-- The plain schedule (rule R107): `LoadTables(); KeyXorPass(); PlainExpand()`. -/
def plainSchedule (key : Memory) (keylen : Nat) : Tables := plainExpand (keyXorPass key keylen loadTables)

/-- The salted schedule (rule R107): `LoadTables(); KeyXorPass(); SaltedExpand()`, one pass of each. -/
def saltedSchedule (key : Memory) (keylen : Nat) (salt : Memory) (saltlen : Nat) : Tables :=
  saltedExpand salt saltlen (keyXorPass key keylen loadTables)

end Sys2Proof.Machine
end

