-- ==== Sys2Proof/Machine/Construct.lean ====
section
/-! DEFINITION. NEWC, NEWSC and BLKSZ (42_cipher_commands.md rules R120 to R123, R126). -/

namespace Sys2Proof.Machine

/-- A successful construction: `P` and `S` replaced, `STATE <- Keyed`, `OUTLEN <- 0` (rules R121, R122). -/
def construct (t : Tables) (s : State) : State := complete 0 { s with tab := t, fsm := .keyed }

/-- The key check of the plain schedule (rule R121): `KEYLEN < 1 or KEYLEN > 56` fails. -/
def plainKeyOk (keylen : Nat) : Bool := decide (Config.keyMin ≤ keylen) && decide (keylen ≤ Config.keyMax)

/-- NEWC's own rule (rule R121). -/
def newcBody (s : State) : State :=
  if plainKeyOk s.keylen then construct (plainSchedule s.key s.keylen) s else raise .keySize s.keylen s

/-- NEWSC's own rule (rule R122): with an empty salt "perform NEWC exactly"; otherwise the salted schedule, for any
key of at least one byte. -/
def newscBody (s : State) : State :=
  if s.saltlen = 0 then newcBody s
  else if s.keylen < 1 then raise .keySize s.keylen s
  else construct (saltedSchedule s.key s.keylen s.salt s.saltlen) s

/-- BLKSZ's own rule (rule R123): `RESULT <- 8`, `OUTLEN <- 0`. -/
def blkszBody (s : State) : State := complete 0 { s with result := BitVec.ofNat 32 Config.blockBytes }

/-- NEWC, code 0x01 (rule R121). Allowed in `Unkeyed` and `Keyed`. -/
def execNewc (s : State) : Host.Outcome State Fault Refusal := inFrame false newcBody s

/-- NEWSC, code 0x02 (rule R122). Allowed in `Unkeyed` and `Keyed`. -/
def execNewsc (s : State) : Host.Outcome State Fault Refusal := inFrame false newscBody s

/-- BLKSZ, code 0x03 (rule R123). Allowed in `Unkeyed` and `Keyed`. -/
def execBlksz (s : State) : Host.Outcome State Fault Refusal := inFrame false blkszBody s

end Sys2Proof.Machine
end

