-- ==== Sys2Proof/Machine/Dispatch.lean ====
section
/-! DEFINITION. One arm per command (30_encoding.md rule R61), each a direct call of its meaning. -/

namespace Sys2Proof.Machine

def exec (i : Instr) (s : State) : Host.Outcome State Fault Refusal :=
  match i with
  | .newc => Sys2Proof.Machine.execNewc s
  | .newsc => Sys2Proof.Machine.execNewsc s
  | .blksz => Sys2Proof.Machine.execBlksz s
  | .encb => Sys2Proof.Machine.execEncb s
  | .decb => Sys2Proof.Machine.execDecb s
  | .enccbc => Sys2Proof.Machine.execEnccbc s
  | .deccbc => Sys2Proof.Machine.execDeccbc s

end Sys2Proof.Machine
end

