-- ==== Sys2Proof/WellFormed.lean ====
section
/-! DEFINITION. Which terms of the syntax the spec admits. -/

namespace Sys2Proof

/-- Every command is well formed: a command has no field that could hold an inadmissible value (rule R60). One
line per command, so that a command with operands could not be admitted by oversight. -/
def Instr.wellFormed : Instr → Bool
  | .newc => true
  | .newsc => true
  | .blksz => true
  | .encb => true
  | .decb => true
  | .enccbc => true
  | .deccbc => true

/-- A script line is well formed when the RNG answer it writes is one the RNG can give: at most 8 bytes
("`n` in 0..8 is the number of bytes delivered", 43_cbc.md rule R150). Operands of any length are legal to write:
whether a command accepts them is for its own rule to say. -/
def Script.wellFormed : Script → Bool
  | .newc _ => true
  | .newsc _ _ => true
  | .blksz => true
  | .encb _ _ => true
  | .decb _ _ => true
  | .enccbc _ rngBytes _ => decide (rngBytes.length ≤ 8)
  | .deccbc _ => true

end Sys2Proof
end

