-- ==== Sys2Proof/Decode.lean ====
section
/-! DEFINITION. The command decoder and encoder (30_encoding.md rules R60, R61, R63). -/

namespace Sys2Proof

/-- What the decoder makes of a code: a command, or a code that selects none, kept under its own name. -/
inductive Decoded where
  | command (i : Instr)
  | reserved (code : Byte)
  deriving DecidableEq, Repr

/-- The decoder of the code written to `CMD`. It matches all 8 bits (rule R61); "Codes 0x00 and 0x08 to 0xFF select
no command" (rule R63). -/
def decode (c : Byte) : Decoded :=
  if c = 0x01 then .command .newc
  else if c = 0x02 then .command .newsc
  else if c = 0x03 then .command .blksz
  else if c = 0x04 then .command .encb
  else if c = 0x05 then .command .decb
  else if c = 0x06 then .command .enccbc
  else if c = 0x07 then .command .deccbc
  else .reserved c

/-- The command of a decoder's answer, if there is one. -/
def Decoded.instr? : Decoded → Option Instr
  | .command i => some i
  | .reserved _ => none

/-- The encoder, from the command map of rule R61. -/
def encode : Instr → Byte
  | .newc => 0x01
  | .newsc => 0x02
  | .blksz => 0x03
  | .encb => 0x04
  | .decb => 0x05
  | .enccbc => 0x06
  | .deccbc => 0x07

/-- The code that an opcode-table word of `nbits` bits stands for: the word's bits, those above `nbits` zero, of
which a command is the first byte (every command is one byte long, rule R60). -/
def tableCode (nbits w : Nat) : Byte := BitVec.ofNat 8 (w % 2 ^ nbits)

/-- The command the decoder reads from an opcode-table word. -/
def decodeTableWord (nbits w : Nat) : Option Instr := (decode (tableCode nbits w)).instr?

end Sys2Proof
end

