-- ==== Sys2Proof/Machine/HostMoves.lean ====
section
/-! DEFINITION. What the outside does to the core: the host's moves (70_reset_and_hazards.md rule R213) and reset (rules
R200, R201). -/

namespace Sys2Proof.Machine

/-! ## Reset -/

/-- `P` and `S` after a reset: free values (10_state.md rule R21, log entry 2). -/
def unspecifiedTables (n : Nat) : Tables where
  P := Vector.ofFn fun i => Config.resetSubkey n i.val
  S := Vector.ofFn fun k => Vector.ofFn fun i => Config.resetSbox n k.val i.val

/-- `IV` after a reset: free values (10_state.md rule R21, log entry 2). -/
def unspecifiedIv (n : Nat) : Block := Vector.ofFn fun i => Config.resetIv n i.val

/-- A storage after byte writes (index, byte) to the places that `addr` gives the indices. -/
def memPatch (addr : Nat → Nat) (m : Memory) (writes : List Host.Cell) : Memory :=
  writes.foldl (fun m c => m.write (addr c.1) c.2) m

/-- The storage of `SRC` and `DST` after a reset: as it was when the core was idle, and after an abandoned command
with any bytes of `DST` overwritten by free values (rule R201, log entry 10). -/
def dataAfterReset (s : State) : Memory :=
  if s.cmd.isNone then s.data else memPatch s.wiring.dstAddr s.data (Config.abandonedDst s.draws)

/-- A reset (rules R200, R201): the registers take the values of 10_state.md rule R21, `P`, `S` and `IV` have no value,
and a command that was executing is abandoned. The host's buffers are no part of the core and keep their contents but
for `DST`; their layout, the pending inputs, `readData` and `draws` are not the core's. Whether an abandoned ENCCBC has
used up an RNG answer the spec leaves open: here it has used none, and the answers stay for the next ENCCBC, a DESIGN
CHOICE (log entry 24, unsafe). -/
def takeReset (s : State) : State :=
  { State.reset with
    tab := unspecifiedTables s.draws
    iv := unspecifiedIv s.draws
    key := s.key
    salt := s.salt
    data := dataAfterReset s
    wiring := s.wiring
    host := s.host
    rng := s.rng
    readData := s.readData
    draws := s.draws + 1 }

/-! ## The host's moves -/

/-- A host read of a register (10_state.md rule R16): no side effect (20_memory.md rule R46), the value going to
`readData`. A read of `CMD` "returns any value": a free value (log entry 9). -/
def readReg (r : HostReg) (s : State) : State :=
  match r with
  | .cmd => { s with readData := (Config.cmdReadValue s.draws).toNat, draws := s.draws + 1 }
  | .len l => { s with readData := s.lenReg l }
  | .ro o => { s with readData := s.roReg o }

/-- One move of the host (rule R213): "nothing changes but what the host writes". -/
def applyMove (m : HostMove) (s : State) : State :=
  match m with
  | .writeBuf b off bytes => s.memWrite b off bytes
  | .writeLen r v => s.setLenReg r v
  | .writeReadOnly _ _ => s
  | .writeCmd code => { s with cmd := some code }
  | .readReg r => readReg r s
  | .readDst i => { s with readData := (s.dstByte i).toNat }
  | .await => s
  | .reset => takeReset s

/-- Whether the host's next move lands now (rule R213). While a command is executing only a reset does; every other
move waits for the command to complete (rules R205, R206). -/
def hostActs (s : State) : Bool :=
  match s.host with
  | [] => false
  | .reset :: _ => true
  | _ :: _ => s.cmd.isNone

/-- The host's next move, taken off the list and carried out; nothing when the list is empty. -/
def takeHostMove (s : State) : State :=
  match s.host with
  | [] => s
  | m :: rest => applyMove m { s with host := rest }

/-! ## Placing a command for the next step -/

/-- The host's list, held back by a wait if a reset stands at its head. -/
def holdReset (host : List HostMove) : List HostMove :=
  match host with
  | .reset :: _ => .await :: host
  | _ => host

/-- The state with a code just written to `CMD`: the next step executes it. On a core that is executing already, where a
write of `CMD` is not defined (93 U5, 70_reset_and_hazards.md rule R205), the code takes the place of the executing one:
DESIGN CHOICE (log entry 7, unsafe). No move of the host does this. -/
def withCommand (s : State) (code : Byte) : State := { s with cmd := some code, host := holdReset s.host }

end Sys2Proof.Machine
end

