-- ==== Sys2Proof/Machine/Step.lean ====
section
/-! DEFINITION. One step of the machine, and placing a command where the next step finds it. -/

namespace Sys2Proof.Machine

/-- Executes the code in `CMD` (60_exceptions.md rule R179): the command it selects, or the error of a reserved code. -/
def runCode (c : Byte) (s : State) : Host.Outcome State Fault Refusal :=
  match decode c with
  | .command i => exec i s
  | .reserved code => execReserved code s

/-- One step: the host's next move if it lands now, else the executing command, else nothing (the core is idle and the
host makes no move). A command is one atomic step (00_scope.md rule R6), ENCCBC's wait for the RNG apart
(60_exceptions.md rule R190). -/
def step (s : State) : Host.Outcome State Fault Refusal :=
  if hostActs s then .next (takeHostMove s)
  else
    match s.cmd with
    | some c => runCode c s
    | none => .next s

/-- The state whose very next step executes the opcode-table word `w` of `nbits` bits, in place of a command that may be
executing (log entry 7). -/
def State.withFetchWord (s : State) (nbits w : Nat) : State := withCommand s (tableCode nbits w)

end Sys2Proof.Machine
end

