-- ==== Sys2Proof/Safety.lean ====
section
/-! DEFINITION. What counts as a good run (60_exceptions.md rule R177, 70_reset_and_hazards.md rule R214), and the
invariants and the relation in which claims about the machine are stated. -/

namespace Sys2Proof.Safety

open Sys2Proof.Machine

/-! ## Good runs -/

/-- A state a run may go on from: "a run that reaches it [`Faulted`] has gone wrong and is never a good final state"
(60_exceptions.md rule R177). -/
def good (s : State) : Bool := decide (s.fsm ≠ .faulted)

/-- The command waits for an RNG that never answers (60_exceptions.md rule R190): ENCCBC is executing in `Keyed` and
no answer is to come. -/
def waitsForever (s : State) : Bool :=
  decide (s.cmd = some 0x06) && decide (s.fsm = .keyed) && s.rng.isEmpty

/-- The step abandons a command: a reset lands while one is executing, so that its STATUS is never written and the command
never ends (rules R201, R214). -/
def abandons (s : State) : Bool :=
  s.cmd.isSome &&
    match s.host with
    | .reset :: _ => true
    | _ => false

/-- A run of `n` steps from `s` that never stops, never is in `Faulted`, never waits for ever, its start and end included,
abandons no command, and ends in a state where `final` holds. -/
def runTo (final : State → Bool) : Nat → State → Bool
  | 0, s => good s && !waitsForever s && final s
  | n + 1, s =>
    good s && !waitsForever s && !abandons s &&
      match step s with
      | .next t => runTo final n t
      | .fault _ => false
      | .refused _ => false

/-- A run of `n` steps from `s` that has not gone wrong (rules R177, R214). -/
def goodRun (n : Nat) (s : State) : Bool := runTo (fun _ => true) n s

/-- The host has no move left and no command is executing: "every command of the list has ended" (rule R214), if none was
abandoned. -/
def finished (s : State) : Bool := s.host.isEmpty && s.cmd.isNone

/-- A run of `n` steps from `s` that has ended well: "when every command of the list has ended and `STATE` is not
`Faulted`"; "A run that reaches `Faulted`, or that waits for ever in ENCCBC, has not ended well" (rule R214). A reset between
two commands counts against no run: DEDUCED from the rule's words, which ask of the commands only (log entry 22). -/
def endedWell (n : Nat) (s : State) : Bool := runTo finished n s

/-! ## Invariants -/

/-- The host's buffers are in canonical form. -/
def storagesWf (s : State) : Bool := s.key.wf && s.salt.wf && s.data.wf

/-- What rules R170 and R171 of 60_exceptions.md and rule R123 of 42_cipher_commands.md make true of the registers at all
times: STATUS holds a value of the table; it is fatal exactly in `Faulted`; OK leaves no datum and an error no result
length; RNG_FAILURE reports at most 8 bytes; RESULT is 0 or the block size. -/
def registersOk (s : State) : Bool :=
  statusLegal s.status && (decide (s.fsm = .faulted) == statusFatal s.status) &&
    (s.status != 0x00 || s.errinfo == 0) && (s.status == 0x00 || s.outlen == 0) &&
    (s.status != 0x03 || decide (s.errinfo ≤ 8)) && (s.result == 0 || s.result == 8)

/-- The invariant of the machine. -/
def inv (s : State) : Bool := storagesWf s && registersOk s

/-- `t` is the schedule that the construction `i` builds from the operands in `s`, operands it accepts
(42_cipher_commands.md rules R121, R122). No other command builds tables. -/
def Builds (i : Instr) (s : State) (t : Tables) : Prop :=
  (1 ≤ s.keylen ∧ s.keylen ≤ 56 ∧ (i = .newc ∨ (i = .newsc ∧ s.saltlen = 0)) ∧ t = plainSchedule s.key s.keylen) ∨
    (1 ≤ s.keylen ∧ 1 ≤ s.saltlen ∧ i = .newsc ∧ t = saltedSchedule s.key s.keylen s.salt s.saltlen)

/-- The step from `s` is a successful construction and `t` is what it builds: a NEWC or NEWSC is executing outside
`Faulted` on operands it accepts, and no reset lands. -/
def Constructs (s : State) (t : Tables) : Prop :=
  s.fsm ≠ .faulted ∧ (∀ rest, s.host ≠ .reset :: rest) ∧ ∃ i, s.cmd = some (encode i) ∧ Builds i s t

/-- The tables are the plain schedule of some key of 1 to 56 bytes, or the salted schedule of some non-empty key and some
salt of 1 to `n` bytes. The bound is what gives this content: a salt long enough to be read without a wrap reaches any
tables whatever, a short one does not (with `n = 0` only plain schedules are left). -/
def ConstructedWithin (n : Nat) (t : Tables) : Prop :=
  (∃ key keylen, 1 ≤ keylen ∧ keylen ≤ 56 ∧ t = plainSchedule key keylen) ∨
    ∃ key keylen salt saltlen, 1 ≤ keylen ∧ 1 ≤ saltlen ∧ saltlen ≤ n ∧ t = saltedSchedule key keylen salt saltlen

/-- Once the core has left `Unkeyed` its tables are those of a construction with a salt of at most `n` bytes
(10_state.md rules R15, R22). -/
def TablesConstructedWithin (n : Nat) (s : State) : Prop := s.fsm ≠ .unkeyed → ConstructedWithin n s.tab

/-! ## What the host cannot see -/

/-- Two states that differ at most in what the host has no path to: the IV register, and, outside `Keyed`, `P` and `S`
(10_state.md rules R11 to R13, R21). -/
def SameToHost (s s' : State) : Prop :=
  s' = { s with tab := s'.tab, iv := s'.iv } ∧ (s.fsm = .keyed → s'.tab = s.tab)

end Sys2Proof.Safety
end

