-- ==== Sys2Proof/Certificates/Slice0/Obligations.lean ====
section
/-! DEFINITION. The statements for the provers, and the few functions in which they say what a command's result is,
written from the rules and not from the meanings. -/

open Sys2Proof Sys2Proof.Machine Sys2Proof.Safety

namespace Sys2Proof.Claims

/-- The 8 bytes of an indexed byte string from an offset on. -/
def blockOf (f : Nat → Byte) (off : Nat) : Block :=
  #v[f off, f (off + 1), f (off + 2), f (off + 3), f (off + 4), f (off + 5), f (off + 6), f (off + 7)]

/-- Byte `j` of the padded data of ENCCBC (43_cbc.md rules R141, R143): the plaintext, then the pad byte, which is the
last plaintext byte XOR 0xCC, or `IV[7]` XOR 0xCC when there is no plaintext. -/
def paddedByte (s : State) (iv : Block) (j : Nat) : Byte :=
  if j < s.srclen then s.srcByte j
  else if s.srclen = 0 then iv[7] ^^^ 0xCC
  else s.srcByte (s.srclen - 1) ^^^ 0xCC

/-- Byte `j` of the decrypted data of DECCBC (rule R162): the ciphertext block it stands in decrypted and XORed with the
block before it. -/
def recoveredByte (s : State) (j : Nat) : Byte :=
  (xorBlock (decryptBlock s.tab (blockOf s.srcByte (8 * (j / 8) + 8))) (blockOf s.srcByte (8 * (j / 8))))[j % 8]

/-- Where the output of the `m`-th block encryption of an expansion is stored, counting from 0 (41_key_schedule.md rules
R104, R106): the first 9 in `P`, the next 512 in `S[0]` to `S[3]`, two words each, the left one in the even slot. -/
def storePair (m : Nat) (w : Word × Word) (t : Tables) : Tables :=
  if hp : m < 9 then { t with P := (t.P.set (2 * m) w.1).set (2 * m + 1) w.2 }
  else if hs : m < 521 then
    let row := (t.S[(m - 9) / 128].set (2 * ((m - 9) % 128)) w.1).set (2 * ((m - 9) % 128) + 1) w.2
    { t with S := t.S.set ((m - 9) / 128) row }
  else t

/-- The `q`-th word of a circularly read buffer of `n` bytes, counting from 0 (00_scope.md rule R8). -/
def circularWord (buf : Memory) (n q : Nat) : Word :=
  be32 (buf.read (4 * q % n)) (buf.read ((4 * q + 1) % n)) (buf.read ((4 * q + 2) % n)) (buf.read ((4 * q + 3) % n))

/-- The host's next move is not a reset. -/
def noReset (s : State) : Prop := ∀ rest, s.host ≠ .reset :: rest

end Sys2Proof.Claims

open Sys2Proof.Claims

/-! ## Encoding -/

/-- The seven command codes (30_encoding.md rule R61), a sanity statement. -/
def Obligations.CommandCodesDecodeToTheirCommands : Prop :=
  decode 0x01 = .command .newc ∧ decode 0x02 = .command .newsc ∧ decode 0x03 = .command .blksz ∧
    decode 0x04 = .command .encb ∧ decode 0x05 = .command .decb ∧ decode 0x06 = .command .enccbc ∧
    decode 0x07 = .command .deccbc

/-- Decoder and encoder agree both ways: no two codes select the same command (rules R60, R61). -/
def Obligations.DecodeInvertsEncode : Prop :=
  (∀ i : Instr, i.wellFormed = true → decode (encode i) = .command i) ∧
    ∀ (c : Byte) (i : Instr), decode c = .command i → c = encode i

/-- A reserved code ends with ILLEGAL_COMMAND and ERRINFO equal to the code, and writes nothing else (30_encoding.md rule
R63, 60_exceptions.md rule R176). -/
def Obligations.ReservedCodeRaisesIllegalCommand : Prop :=
  ∀ (s : State) (c : Byte), s.cmd = some c → noReset s → s.fsm ≠ .faulted → (c = 0x00 ∨ 8 ≤ c.toNat) →
    step s = .next { s with status := 0x05, errinfo := c.toNat, outlen := 0, cmd := none }

/-! ## Steps -/

/-- A step runs the decoded command: nothing stands between the code in `CMD` and `exec`. -/
def Obligations.StepExecutesTheDecodedCommand : Prop :=
  ∀ (s : State) (c : Byte) (i : Instr), s.cmd = some c → noReset s → decode c = .command i → step s = exec i s

/-- `withFetchWord` places a command where the very next step runs it (log entry 7, the model's own). -/
def Obligations.PlacedTableWordRunsNext : Prop :=
  ∀ (s : State) (nbits w : Nat) (i : Instr), decodeTableWord nbits w = some i →
    step (s.withFetchWord nbits w) = exec i (s.withFetchWord nbits w)

/-- "A write starts the command" (10_state.md rule R16, register 0). The spec makes the command one transition on the
write (00_scope.md rule R6, 60_exceptions.md rule R179); that the write is a step of its own, which only sets `cmd`, and
the command runs in a later step is the model's choice (log entry 19). -/
def Obligations.WriteOfCmdStartsTheCommand : Prop :=
  ∀ (s : State) (c : Byte) (rest : List HostMove), s.cmd = none → s.host = .writeCmd c :: rest →
    step s = .next { s with cmd := some c, host := rest }

/-- No step ends in a fault or a refusal: every outcome of a command is a state (log entry 13, the model's own). -/
def Obligations.EveryStepAnswersNext : Prop := ∀ s : State, ∃ t, step s = .next t

/-- While a command is executing no move of the host lands but a reset (70_reset_and_hazards.md rules R205, R206); that
the move waits is the model's choice (log entry 6). -/
def Obligations.ExecutingCommandHoldsTheHostBack : Prop :=
  ∀ (s t : State) (c : Byte), s.cmd = some c → noReset s → step s = .next t →
    t.host = s.host ∧ t.key = s.key ∧ t.salt = s.salt ∧ t.keylen = s.keylen ∧ t.saltlen = s.saltlen ∧
      t.srclen = s.srclen ∧ t.dstlen = s.dstlen ∧ t.wiring = s.wiring ∧ t.readData = s.readData ∧ t.draws = s.draws

/-- A host write to a length register stores any value and changes nothing else (10_state.md rule R16). -/
def Obligations.HostWritesLengthRegisters : Prop :=
  ∀ (s : State) (v : Nat) (rest : List HostMove), s.cmd = none →
    (s.host = .writeLen .keylen v :: rest → step s = .next { s with keylen := v, host := rest }) ∧
    (s.host = .writeLen .saltlen v :: rest → step s = .next { s with saltlen := v, host := rest }) ∧
    (s.host = .writeLen .srclen v :: rest → step s = .next { s with srclen := v, host := rest }) ∧
    (s.host = .writeLen .dstlen v :: rest → step s = .next { s with dstlen := v, host := rest })

/-- A host write to a read-only register has no effect (10_state.md rule R16). -/
def Obligations.ReadOnlyRegistersIgnoreWrites : Prop :=
  ∀ (s : State) (r : RoReg) (v : Nat) (rest : List HostMove), s.cmd = none → s.host = .writeReadOnly r v :: rest →
    step s = .next { s with host := rest }

/-- Host reads return the register and have no side effect (20_memory.md rule R46); a read of `CMD` returns some byte
(10_state.md rule R16). `readData` and the counter `draws` that a read of `CMD` advances are the model's own (log
entries 11, 12). -/
def Obligations.HostReadsHaveNoSideEffect : Prop :=
  ∀ (s : State) (rest : List HostMove), s.cmd = none →
    (s.host = .readReg (.ro .status) :: rest → step s = .next { s with host := rest, readData := s.status.toNat }) ∧
    (s.host = .readReg (.ro .errinfo) :: rest → step s = .next { s with host := rest, readData := s.errinfo }) ∧
    (s.host = .readReg (.len .keylen) :: rest → step s = .next { s with host := rest, readData := s.keylen }) ∧
    (s.host = .readReg (.len .saltlen) :: rest → step s = .next { s with host := rest, readData := s.saltlen }) ∧
    (s.host = .readReg (.len .srclen) :: rest → step s = .next { s with host := rest, readData := s.srclen }) ∧
    (s.host = .readReg (.len .dstlen) :: rest → step s = .next { s with host := rest, readData := s.dstlen }) ∧
    (s.host = .readReg (.ro .outlen) :: rest → step s = .next { s with host := rest, readData := s.outlen }) ∧
    (s.host = .readReg (.ro .state) :: rest →
      step s = .next { s with host := rest, readData := match s.fsm with | .unkeyed => 0 | .keyed => 1 | .faulted => 2 }) ∧
    (s.host = .readReg (.ro .result) :: rest → step s = .next { s with host := rest, readData := s.result.toNat }) ∧
    (∀ i, s.host = .readDst i :: rest → step s = .next { s with host := rest, readData := (s.dstByte i).toNat }) ∧
    (s.host = .readReg .cmd :: rest →
      ∃ v, v < 256 ∧ step s = .next { s with host := rest, readData := v, draws := s.draws + 1 })

/-- A host write to a buffer stores the bytes at their indices and leaves every other byte of the buffer, every other
place of the storage it stands in (so, whatever the layout, every byte of `DST` that is no written byte of `SRC`, and the
same with the two exchanged), the storages of the other buffers and every register alone (70_reset_and_hazards.md rule
R213). The layout of `SRC` and `DST` is the model's (log entry 15). -/
def Obligations.HostBufferWriteStoresItsBytes : Prop :=
  ∀ (s : State) (b : Buf) (off : Nat) (bytes : List Byte) (rest : List HostMove), s.cmd = none → storagesWf s = true →
    s.host = .writeBuf b off bytes :: rest →
    ∃ t, step s = .next t ∧
      (∀ i (h : i < bytes.length), t.bufByte b (off + i) = bytes[i]) ∧
      (∀ j, j < off ∨ off + bytes.length ≤ j → t.bufByte b j = s.bufByte b j) ∧
      (∀ a, (∀ i < bytes.length, a ≠ s.bufAddr b (off + i)) → (t.bufMem b).read a = (s.bufMem b).read a) ∧
      (b ≠ .key → t.key = s.key) ∧ (b ≠ .salt → t.salt = s.salt) ∧ (b = .key ∨ b = .salt → t.data = s.data) ∧
      (s.wiring = .distinct → b = .src → ∀ j, t.dstByte j = s.dstByte j) ∧
      (s.wiring = .distinct → b = .dst → ∀ j, t.srcByte j = s.srcByte j) ∧
      t = { s with host := rest, key := t.key, salt := t.salt, data := t.data }

/-! ## Reset -/

/-- The state right after reset (10_state.md rule R21): what the rule gives a value. -/
def Obligations.ResetStateHoldsTheGivenValues : Prop :=
  State.reset.fsm = .unkeyed ∧ State.reset.fsm.code = 0 ∧ State.reset.status = 0x00 ∧ State.reset.errinfo = 0 ∧
    State.reset.outlen = 0 ∧ State.reset.result = 0 ∧ State.reset.keylen = 0 ∧ State.reset.saltlen = 0 ∧
    State.reset.srclen = 0 ∧ State.reset.dstlen = 0 ∧ State.reset.cmd = none

/-- A reset, whether the core is idle, executing or `Faulted` (70_reset_and_hazards.md rules R200, R201): the registers
take their reset values, a command that was executing is gone, `KEY` and `SALT` keep their bytes, and so does the data
storage but, after an abandoned command, the places of `DST` (the model's reading, log entries 10, 21). Three clauses are
the model's choice and no rule's: that the RNG's answers stay, also when the reset abandons an executing ENCCBC, which the
spec leaves open (log entry 24); that the layout of `SRC` and `DST` stays (log entry 15); and that the host's moves after
the reset stay in its list (log entry 6). -/
def Obligations.ResetGivesTheResetValues : Prop :=
  ∀ (s : State) (rest : List HostMove), s.host = .reset :: rest →
    ∃ t, step s = .next t ∧ t.fsm = .unkeyed ∧ t.status = 0x00 ∧ t.errinfo = 0 ∧ t.outlen = 0 ∧ t.result = 0 ∧
      t.keylen = 0 ∧ t.saltlen = 0 ∧ t.srclen = 0 ∧ t.dstlen = 0 ∧ t.cmd = none ∧ t.key = s.key ∧ t.salt = s.salt ∧
      t.wiring = s.wiring ∧ t.host = rest ∧ t.rng = s.rng ∧ (s.cmd = none → t.data = s.data) ∧
      (s.data.wf = true → ∀ a, (∀ i, a ≠ s.wiring.dstAddr i) → t.data.read a = s.data.read a)

/-! ## The block transforms -/

/-- F's grouping, wrap-around sums and table order (40_round_transform.md rule R81), the indices written as quotients and
remainders of the word. -/
def Obligations.SubstitutionUnitGroupsSumXorSum : Prop :=
  ∀ (t : Tables) (b : Word),
    F t b =
      ((t.S[0][b.toNat / 2 ^ 24]! + t.S[1][b.toNat / 2 ^ 16 % 256]!) ^^^ t.S[2][b.toNat / 2 ^ 8 % 256]!) +
        t.S[3][b.toNat % 256]!

/-- EncryptWords as a sequence of word pairs `x 0, …, x 16` (40_round_transform.md rules R82, R83). -/
def Obligations.EncryptWordsRunsSixteenRounds : Prop :=
  ∀ (t : Tables) (L R : Word) (x : Nat → Word × Word), x 0 = (L ^^^ t.P[0], R) →
    (∀ n, (h : 1 ≤ n ∧ n ≤ 16) →
      x n = if n % 2 = 1 then ((x (n - 1)).1, (x (n - 1)).2 ^^^ F t (x (n - 1)).1 ^^^ t.P[n])
        else ((x (n - 1)).1 ^^^ F t (x (n - 1)).2 ^^^ t.P[n], (x (n - 1)).2)) →
    encryptWords t (L, R) = ((x 16).2 ^^^ t.P[17], (x 16).1)

/-- DecryptWords as a sequence of word pairs, `x k` the pair after the round with subkey `P[17 - k]`
(40_round_transform.md rules R82, R84). -/
def Obligations.DecryptWordsRunsTheRoundsBackward : Prop :=
  ∀ (t : Tables) (L R : Word) (x : Nat → Word × Word), x 0 = (L ^^^ t.P[17], R) →
    (∀ k, (h : 1 ≤ k ∧ k ≤ 16) →
      x k = if (17 - k) % 2 = 0 then ((x (k - 1)).1, (x (k - 1)).2 ^^^ F t (x (k - 1)).1 ^^^ t.P[17 - k])
        else ((x (k - 1)).1 ^^^ F t (x (k - 1)).2 ^^^ t.P[17 - k], (x (k - 1)).2)) →
    decryptWords t (L, R) = ((x 16).2 ^^^ t.P[0], (x 16).1)

/-- The inverse law, for every content of `P` and `S` (40_round_transform.md rule R85, which states it for keyed states
from the source and marks its extension to every content as derived from rules R82 to R84). -/
def Obligations.BlockTransformsAreMutuallyInverse : Prop :=
  ∀ (t : Tables) (w : Word × Word), decryptWords t (encryptWords t w) = w ∧ encryptWords t (decryptWords t w) = w

/-- The byte-level transforms (40_round_transform.md rule R86): big-endian in, big-endian out. -/
def Obligations.BlockTransformsAreBigEndian : Prop :=
  ∀ (t : Tables) (b : Block) (L R : Word),
    L.toNat = b[0].toNat * 2 ^ 24 + b[1].toNat * 2 ^ 16 + b[2].toNat * 2 ^ 8 + b[3].toNat →
    R.toNat = b[4].toNat * 2 ^ 24 + b[5].toNat * 2 ^ 16 + b[6].toNat * 2 ^ 8 + b[7].toNat →
    (∀ k (h : k < 4), (encryptBlock t b)[k].toNat = (encryptWords t (L, R)).1.toNat / 2 ^ (24 - 8 * k) % 256 ∧
      (encryptBlock t b)[k + 4].toNat = (encryptWords t (L, R)).2.toNat / 2 ^ (24 - 8 * k) % 256) ∧
    (∀ k (h : k < 4), (decryptBlock t b)[k].toNat = (decryptWords t (L, R)).1.toNat / 2 ^ (24 - 8 * k) % 256 ∧
      (decryptBlock t b)[k + 4].toNat = (decryptWords t (L, R)).2.toNat / 2 ^ (24 - 8 * k) % 256)

/-- For fixed tables EncryptBlock is a bijection of the 8-byte blocks, with DecryptBlock its inverse
(40_round_transform.md rules R85, R86). -/
def Obligations.EncryptBlockIsBijective : Prop :=
  ∀ t : Tables, Function.Bijective (encryptBlock t) ∧ ∀ b, decryptBlock t (encryptBlock t b) = b

/-! ## The key schedules -/

/-- NextWord reads four bytes circularly, most significant first, and moves the cursor by four (00_scope.md rule R8). -/
def Obligations.NextWordReadsCircularly : Prop :=
  ∀ (buf : Memory) (n j : Nat), 1 ≤ n → j < n →
    nextWord buf n j =
      (be32 (buf.read j) (buf.read ((j + 1) % n)) (buf.read ((j + 2) % n)) (buf.read ((j + 3) % n)), (j + 4) % n)

/-- KeyXorPass XORs the 18 circular key words into `P` in order and does not touch `S` (41_key_schedule.md rule R102). -/
def Obligations.KeyXorPassFoldsTheKeyWords : Prop :=
  ∀ (key : Memory) (n : Nat) (t : Tables), 1 ≤ n →
    (keyXorPass key n t).S = t.S ∧
      ∀ i (h : i < 18), (keyXorPass key n t).P[i] = t.P[i] ^^^ circularWord key n i

/-- PlainExpand is one chain of 521 encryptions, each under the tables as the stores before it have left them
(41_key_schedule.md rules R103, R104): `w m` is the in-flight block and `st m` the tables before encryption `m`. -/
def Obligations.PlainExpandChainsItsEncryptions : Prop :=
  ∀ (t : Tables) (st : Nat → Tables) (w : Nat → Word × Word), st 0 = t → w 0 = (0, 0) →
    (∀ m < 521, w (m + 1) = encryptWords (st m) (w m) ∧ st (m + 1) = storePair m (w (m + 1)) (st m)) →
    plainExpand t = st 521

/-- SaltedExpand is the same chain with the salt words `2m` and `2m + 1` XORed into the in-flight block before
encryption `m`, the salt being read circularly across the whole chain without restarting (41_key_schedule.md rules
R105, R106). -/
def Obligations.SaltedExpandFoldsTheSaltInWithoutRestart : Prop :=
  ∀ (salt : Memory) (n : Nat) (t : Tables) (st : Nat → Tables) (w : Nat → Word × Word), 1 ≤ n → st 0 = t → w 0 = (0, 0) →
    (∀ m < 521,
      w (m + 1) =
          encryptWords (st m)
            ((w m).1 ^^^ circularWord salt n (2 * m), (w m).2 ^^^ circularWord salt n (2 * m + 1)) ∧
        st (m + 1) = storePair m (w (m + 1)) (st m)) →
    saltedExpand salt n t = st 521

/-- A salt whose bytes are all zero gives the plain expansion (41_key_schedule.md rule R106). -/
def Obligations.ZeroSaltExpandsAsThePlainSchedule : Prop :=
  ∀ (salt : Memory) (n : Nat) (t : Tables), 1 ≤ n → (∀ i < n, salt.read i = 0) → saltedExpand salt n t = plainExpand t

/-- The schedules read their operands only as the byte streams `KEY[t mod KEYLEN]`, t = 0..71, and `SALT[t mod
SALTLEN]`, t = 0..4167 (20_memory.md rule R43): operands with the same streams give the same tables. So key bytes at
72 and beyond do not matter, and a key and its repetition agree (41_key_schedule.md rule R102). -/
def Obligations.SchedulesReadOnlyTheCircularStreams : Prop :=
  ∀ (key key' salt salt' : Memory) (n n' q q' : Nat), 1 ≤ n → 1 ≤ n' → 1 ≤ q → 1 ≤ q' →
    (∀ t < 72, key.read (t % n) = key'.read (t % n')) → (∀ t < 4168, salt.read (t % q) = salt'.read (t % q')) →
    plainSchedule key n = plainSchedule key' n' ∧ saltedSchedule key n salt q = saltedSchedule key' n' salt' q'

/-! ## NEWC, NEWSC, BLKSZ -/

/-- NEWC (42_cipher_commands.md rule R121): it completes exactly for keys of 1 to 56 bytes, and fails with KEY_SIZE
and the length otherwise; what each outcome writes and leaves. -/
def Obligations.NewcBuildsThePlainSchedule : Prop :=
  ∀ s : State, s.fsm ≠ .faulted →
    (1 ≤ s.keylen ∧ s.keylen ≤ 56 →
      exec .newc s = .next { s with
        tab := plainExpand (keyXorPass s.key s.keylen { P := pInit, S := sInit }), fsm := .keyed, status := 0x00,
        errinfo := 0, outlen := 0, cmd := none }) ∧
    (s.keylen < 1 ∨ 56 < s.keylen →
      exec .newc s = .next { s with status := 0x01, errinfo := s.keylen, outlen := 0, cmd := none })

/-- NEWSC (42_cipher_commands.md rule R122): with an empty salt it is NEWC; otherwise it completes exactly for a
non-empty key. -/
def Obligations.NewscBuildsTheSaltedSchedule : Prop :=
  ∀ s : State, s.fsm ≠ .faulted →
    (s.saltlen = 0 → exec .newsc s = exec .newc s) ∧
    (1 ≤ s.saltlen → 1 ≤ s.keylen →
      exec .newsc s = .next { s with
        tab := saltedExpand s.salt s.saltlen (keyXorPass s.key s.keylen { P := pInit, S := sInit }), fsm := .keyed,
        status := 0x00, errinfo := 0, outlen := 0, cmd := none }) ∧
    (1 ≤ s.saltlen → s.keylen = 0 →
      exec .newsc s = .next { s with status := 0x01, errinfo := 0, outlen := 0, cmd := none })

/-- BLKSZ (42_cipher_commands.md rule R123): 8 in RESULT, keyed or not. -/
def Obligations.BlkszReturnsEight : Prop :=
  ∀ s : State, s.fsm ≠ .faulted →
    exec .blksz s = .next { s with result := 8, status := 0x00, errinfo := 0, outlen := 0, cmd := none }

/-! ## ENCB and DECB -/

/-- ENCB with both lengths 8 (42_cipher_commands.md rule R124): `DST[0..7]` is the encryption of `SRC[0..7]`; every other
byte of memory and every register the rule does not name is unchanged. -/
def Obligations.EncbEncryptsOneBlock : Prop :=
  ∀ s : State, s.fsm = .keyed → s.srclen = 8 → s.dstlen = 8 → s.data.wf = true →
    ∃ t, exec .encb s = .next t ∧
      blockOf t.dstByte 0 = encryptBlock s.tab (blockOf s.srcByte 0) ∧
      (∀ a, (∀ i < 8, a ≠ s.wiring.dstAddr i) → t.data.read a = s.data.read a) ∧
      t = { s with data := t.data, status := 0x00, errinfo := 0, outlen := 8, cmd := none }

/-- DECB with both lengths 8 (42_cipher_commands.md rule R125). -/
def Obligations.DecbDecryptsOneBlock : Prop :=
  ∀ s : State, s.fsm = .keyed → s.srclen = 8 → s.dstlen = 8 → s.data.wf = true →
    ∃ t, exec .decb s = .next t ∧
      blockOf t.dstByte 0 = decryptBlock s.tab (blockOf s.srcByte 0) ∧
      (∀ a, (∀ i < 8, a ≠ s.wiring.dstAddr i) → t.data.read a = s.data.read a) ∧
      t = { s with data := t.data, status := 0x00, errinfo := 0, outlen := 8, cmd := none }

/-- BUFFER_CONTRACT (60_exceptions.md rule R177): ENCB or DECB with a length that is not 8 is fatal, reports the first
offending length, touches no buffer and goes to `Faulted`. -/
def Obligations.WrongBlockLengthIsFatal : Prop :=
  ∀ (s : State) (i : Instr), s.fsm = .keyed → i = .encb ∨ i = .decb →
    (s.srclen ≠ 8 →
      exec i s = .next { s with status := 0x81, errinfo := s.srclen, outlen := 0, fsm := .faulted, cmd := none }) ∧
    (s.srclen = 8 → s.dstlen ≠ 8 →
      exec i s = .next { s with status := 0x81, errinfo := s.dstlen, outlen := 0, fsm := .faulted, cmd := none })

/-- DECB undoes ENCB under the same tables, whatever they are, and ENCB undoes DECB (42_cipher_commands.md rule R125),
the host carrying the result bytes from `DST` to `SRC`. -/
def Obligations.DecbAndEncbUndoEachOther : Prop :=
  ∀ (s u : State) (i j : Instr), (i = .encb ∧ j = .decb) ∨ (i = .decb ∧ j = .encb) →
    s.fsm = .keyed → s.srclen = 8 → s.dstlen = 8 → s.data.wf = true →
    u.fsm = .keyed → u.srclen = 8 → u.dstlen = 8 → u.data.wf = true → u.tab = s.tab →
    ∃ t, exec i s = .next t ∧
      ((∀ k < 8, u.srcByte k = t.dstByte k) → ∃ v, exec j u = .next v ∧ ∀ k < 8, v.dstByte k = s.srcByte k)

/-! ## ENCCBC and DECCBC -/

/-- ENCCBC with an RNG answer of 8 bytes without failure (43_cbc.md rules R141 to R143, R151, R153 to R156; STATUS and
ERRINFO: 42_cipher_commands.md rule R126): the result
is the IV followed by the chained encryption of the padded plaintext, block by block; the length is
`8 + 8*(SRCLEN div 8 + 1)`; every other byte of memory and every register the rule does not name is unchanged. The pad
byte of an empty plaintext is the spec's own decision (log entry 14). -/
def Obligations.EnccbcChainsThePaddedPlaintext : Prop :=
  ∀ (s : State) (a : RngAnswer) (rest : List RngAnswer), s.fsm = .keyed → s.data.wf = true → s.rng = a :: rest →
    a.n.val = 8 → a.fail = false →
    ∃ t, exec .enccbc s = .next t ∧
      blockOf t.dstByte 0 = a.bytes ∧
      (∀ m ≤ s.srclen / 8,
        blockOf t.dstByte (8 * m + 8) =
          encryptBlock s.tab (xorBlock (blockOf (paddedByte s a.bytes) (8 * m)) (blockOf t.dstByte (8 * m)))) ∧
      (∀ b, (∀ i < 8 + 8 * (s.srclen / 8 + 1), b ≠ s.wiring.dstAddr i) → t.data.read b = s.data.read b) ∧
      t = { s with data := t.data, iv := a.bytes, rng := rest, status := 0x00, errinfo := 0,
                   outlen := 8 + 8 * (s.srclen / 8 + 1), cmd := none }

/-- RNG_FAILURE (43_cbc.md rule R152, 60_exceptions.md rule R175): a short read or a reported failure, either one. The
answer is used up, the bytes delivered are discarded. -/
def Obligations.ShortOrFailedRandomReadIsRefused : Prop :=
  ∀ (s : State) (a : RngAnswer) (rest : List RngAnswer), s.fsm = .keyed → s.rng = a :: rest →
    (a.n.val < 8 ∨ a.fail = true) →
    exec .enccbc s = .next { s with rng := rest, status := 0x03, errinfo := a.n.val, outlen := 0, cmd := none }

/-- An ENCCBC whose RNG does not answer stays executing: the step changes nothing at all, so STATUS is not written and
no move of the host but a reset lands (60_exceptions.md rule R190). That the wait is a step to the same state is the
model's choice (log entry 8). -/
def Obligations.EnccbcWaitsForTheRandomSource : Prop :=
  ∀ s : State, s.cmd = some 0x06 → s.fsm = .keyed → s.rng = [] → noReset s → step s = .next s

/-- DECCBC of a legal length (43_cbc.md rules R144, R161, R162, R165, R166; STATUS and ERRINFO: 42_cipher_commands.md rule
R126): the result is the decrypted data up to the
trailing run of bytes equal to its last byte, which is stripped whole; the IV register takes the first 8 bytes of
`SRC`; every other byte of memory and every register the rule does not name is unchanged. -/
def Obligations.DeccbcStripsTheTrailingRun : Prop :=
  ∀ s : State, s.fsm = .keyed → s.data.wf = true → s.srclen % 8 = 0 → 16 ≤ s.srclen →
    ∃ t, exec .deccbc s = .next t ∧
      t.outlen ≤ s.srclen - 9 ∧
      (∀ j, t.outlen ≤ j → j < s.srclen - 8 → recoveredByte s j = recoveredByte s (s.srclen - 9)) ∧
      (0 < t.outlen → recoveredByte s (t.outlen - 1) ≠ recoveredByte s (s.srclen - 9)) ∧
      (∀ i < t.outlen, t.dstByte i = recoveredByte s i) ∧
      (∀ b, (∀ i < t.outlen, b ≠ s.wiring.dstAddr i) → t.data.read b = s.data.read b) ∧
      t = { s with data := t.data, iv := blockOf s.srcByte 0, status := 0x00, errinfo := 0, outlen := t.outlen,
                   cmd := none }

/-- MALFORMED_INPUT (43_cbc.md rule R160, 60_exceptions.md rule R173): a length that is no multiple of 8, or 0, or 8. -/
def Obligations.MalformedCiphertextLengthIsRefused : Prop :=
  ∀ s : State, s.fsm = .keyed → (s.srclen % 8 ≠ 0 ∨ s.srclen = 0 ∨ s.srclen = 8) →
    exec .deccbc s = .next { s with status := 0x02, errinfo := s.srclen, outlen := 0, cmd := none }

/-- `DECCBC(ENCCBC(D)) = D` for every plaintext, the empty one included, and every good RNG answer, with no exception
(43_cbc.md rules R145, R167, 90_conflicts.md C3; DECCBC's STATUS 0x00: 43_cbc.md rule R166). The host carries the result from `DST` to `SRC` and `OUTLEN` to
`SRCLEN`; the tables are the same, whatever they are. -/
def Obligations.DeccbcUndoesEnccbc : Prop :=
  ∀ (s : State) (a : RngAnswer) (rest : List RngAnswer), s.fsm = .keyed → s.data.wf = true → s.rng = a :: rest →
    a.n.val = 8 → a.fail = false →
    ∃ t, exec .enccbc s = .next t ∧
      ∀ u : State, u.fsm = .keyed → u.data.wf = true → u.tab = s.tab → u.srclen = t.outlen →
        (∀ i < t.outlen, u.srcByte i = t.dstByte i) →
        ∃ v, exec .deccbc u = .next v ∧ v.status = 0x00 ∧ v.outlen = s.srclen ∧
          ∀ i < s.srclen, v.dstByte i = s.srcByte i

/-! ## Errors of any command -/

/-- NOT_KEYED (60_exceptions.md rule R174): whatever the operands, nothing is examined and the RNG is not asked. -/
def Obligations.KeyNeedingCommandsRefuseUnkeyed : Prop :=
  ∀ (s : State) (i : Instr), s.fsm = .unkeyed → i = .encb ∨ i = .decb ∨ i = .enccbc ∨ i = .deccbc →
    exec i s = .next { s with status := 0x04, errinfo := 0, outlen := 0, cmd := none }

/-- A failed command is, apart from STATUS, ERRINFO, OUTLEN and, when the failure is the fatal one, STATE, as if it had
not been issued (60_exceptions.md rule R171); the random bytes it consumed stay consumed (20_memory.md rule R46). -/
def Obligations.FailedCommandWritesOnlyItsStatus : Prop :=
  ∀ (s t : State) (i : Instr) (c : Byte), s.cmd = some c → s.fsm ≠ .faulted → exec i s = .next t → t.cmd = none →
    t.status ≠ 0x00 →
    t = { s with status := t.status, errinfo := t.errinfo, outlen := 0, cmd := none, fsm := t.fsm, rng := t.rng } ∧
      (t.rng = s.rng ∨ (i = .enccbc ∧ t.status = 0x03 ∧ t.rng = s.rng.tail)) ∧
      ((t.status ≠ 0x81 ∧ t.fsm = s.fsm) ∨ (t.status = 0x81 ∧ t.fsm = .faulted))

/-- In `Faulted` every code, legal or reserved, is refused and nothing is written (60_exceptions.md rule R178); the
command has ended, so `CMD` is free again (the model's reading, log entry 17). -/
def Obligations.FaultedCoreRefusesEveryCode : Prop :=
  ∀ (s : State) (c : Byte), s.fsm = .faulted → s.cmd = some c → noReset s → step s = .next { s with cmd := none }

/-! ## Whole-machine rules -/

/-- The moves of the FSM (42_cipher_commands.md rule R120): a change of STATE is a reset, a successful construction out
of `Unkeyed`, or a breach of the buffer contract out of `Keyed`. So only reset leaves `Faulted`. -/
def Obligations.StateChangesOnlyAsTheTableSays : Prop :=
  ∀ s t : State, step s = .next t → t.fsm ≠ s.fsm →
    (t.fsm = .unkeyed ∧ ∃ rest, s.host = .reset :: rest) ∨
    (s.fsm = .unkeyed ∧ t.fsm = .keyed ∧ t.status = 0x00 ∧ (s.cmd = some 0x01 ∨ s.cmd = some 0x02)) ∨
    (s.fsm = .keyed ∧ t.fsm = .faulted ∧ t.status = 0x81 ∧ (s.cmd = some 0x04 ∨ s.cmd = some 0x05) ∧
      (s.srclen ≠ 8 ∨ s.dstlen ≠ 8))

/-- `P` and `S` change only in a successful NEWC or NEWSC, or lose their value in a reset (10_state.md rules R11, R12,
R22). -/
def Obligations.OnlyConstructionsWriteTheTables : Prop :=
  ∀ s t : State, step s = .next t → t.tab ≠ s.tab →
    (∃ rest, s.host = .reset :: rest) ∨
      (s.fsm ≠ .faulted ∧ t.fsm = .keyed ∧ t.status = 0x00 ∧ (s.cmd = some 0x01 ∨ s.cmd = some 0x02))

/-- The IV register changes only in ENCCBC and DECCBC, or loses its value in a reset (10_state.md rule R13). -/
def Obligations.OnlyCbcCommandsWriteTheIv : Prop :=
  ∀ s t : State, step s = .next t → t.iv ≠ s.iv →
    (∃ rest, s.host = .reset :: rest) ∨
      (s.fsm = .keyed ∧ t.status = 0x00 ∧ (s.cmd = some 0x06 ∨ s.cmd = some 0x07))

/-- The invariants hold right after reset, that of the tables for every bound on the salt. -/
def Obligations.InvariantHoldsAtReset : Prop :=
  inv State.reset = true ∧ ∀ n, TablesConstructedWithin n State.reset

/-- Every step keeps the invariant: canonical buffers; STATUS a value of the table, fatal exactly in `Faulted`; no datum
with OK; no result length with an error; RESULT 0 or 8. -/
def Obligations.EveryStepKeepsTheInvariant : Prop :=
  ∀ s t : State, inv s = true → step s = .next t → inv t = true

/-- While `SALTLEN` is at most `n`, every step keeps the tables of a core that has left `Unkeyed` a construction's with a
salt of at most `n` bytes (10_state.md rule R22); for `n = 0`, the plain schedule of a key of 1 to 56 bytes. The premise
is about the operand of the step alone. A bound is needed for this to say anything: a salt of 4168 bytes and more reaches
any tables. `EveryStepKeepsTheTablesOrBuildsThemFromItsOperands` says which construction it was, without a bound. -/
def Obligations.EveryStepKeepsTheTablesConstructed : Prop :=
  ∀ (n : Nat) (s t : State), s.saltlen ≤ n → TablesConstructedWithin n s → step s = .next t → TablesConstructedWithin n t

/-- A construction's tables depend on its operands alone, not on the state before it (41_key_schedule.md rule R109). -/
def Obligations.ConstructionForgetsThePreviousState : Prop :=
  ∀ (s s' t t' : State) (i : Instr), i = .newc ∨ i = .newsc → s.fsm ≠ .faulted → s'.fsm ≠ .faulted →
    s.keylen = s'.keylen → s.saltlen = s'.saltlen → (∀ k < s.keylen, s.key.read k = s'.key.read k) →
    (∀ k < s.saltlen, s.salt.read k = s'.salt.read k) → exec i s = .next t → exec i s' = .next t' →
    t.status = t'.status ∧ t.errinfo = t'.errinfo ∧ (t.status = 0x00 → t.tab = t'.tab ∧ t.fsm = t'.fsm)

/-- Nothing the host can see ever depends on the IV register, nor on `P` and `S` outside `Keyed` (10_state.md rules R13,
R21): two states that differ in those only stay so, step by step. -/
def Obligations.HiddenStateNeverReachesTheHost : Prop :=
  ∀ s s' t : State, SameToHost s s' → step s = .next t → ∃ t', step s' = .next t' ∧ SameToHost t t'

/-- After every step that leaves the core outside `Unkeyed`, its tables are what the NEWC or NEWSC that ran built from the
`KEY`, `KEYLEN`, `SALT` and `SALTLEN` of that step, or, when no construction ran, those it had outside `Unkeyed` before
(10_state.md rules R15, R22, 42_cipher_commands.md rules R121, R122). -/
def Obligations.EveryStepKeepsTheTablesOrBuildsThemFromItsOperands : Prop :=
  ∀ s t : State, step s = .next t → t.fsm ≠ .unkeyed →
    Constructs s t.tab ∨ (s.fsm ≠ .unkeyed ∧ t.tab = s.tab ∧ ∀ u, ¬Constructs s u)

/-- "In `Keyed`, `P` and `S` are a function of the last successful construction's operands only" (10_state.md rule R22):
along every run from an `Unkeyed` state to a state outside `Unkeyed` there is a step that constructed the tables the run
ends with, from the operands of that step; after it no construction ran, the core never went back to `Unkeyed`, and the
tables stayed. -/
def Obligations.TablesAreThoseOfTheLastConstruction : Prop :=
  ∀ (x : Nat → State) (n : Nat), (x 0).fsm = .unkeyed → (∀ m < n, step (x m) = .next (x (m + 1))) →
    (x n).fsm ≠ .unkeyed →
    ∃ m < n, Constructs (x m) (x n).tab ∧
      ∀ k, m < k → k ≤ n → (x k).fsm ≠ .unkeyed ∧ (x k).tab = (x n).tab ∧ (k < n → ∀ u, ¬Constructs (x k) u)
end

