-- ==== Sys2Proof/Laws/State.lean ====
section
/-! SUPPORT. One lemma per field per named update of the state, so that no later proof unfolds a record update. -/

namespace Sys2Proof.Machine

/-! ## Normal completion -/

@[simp] theorem complete_tab (n : Nat) (s : State) : (complete n s).tab = s.tab := rfl
@[simp] theorem complete_iv (n : Nat) (s : State) : (complete n s).iv = s.iv := rfl
@[simp] theorem complete_fsm (n : Nat) (s : State) : (complete n s).fsm = s.fsm := rfl
@[simp] theorem complete_cmd (n : Nat) (s : State) : (complete n s).cmd = none := rfl
@[simp] theorem complete_status (n : Nat) (s : State) : (complete n s).status = statusOk := rfl
@[simp] theorem complete_errinfo (n : Nat) (s : State) : (complete n s).errinfo = 0 := rfl
@[simp] theorem complete_keylen (n : Nat) (s : State) : (complete n s).keylen = s.keylen := rfl
@[simp] theorem complete_saltlen (n : Nat) (s : State) : (complete n s).saltlen = s.saltlen := rfl
@[simp] theorem complete_srclen (n : Nat) (s : State) : (complete n s).srclen = s.srclen := rfl
@[simp] theorem complete_dstlen (n : Nat) (s : State) : (complete n s).dstlen = s.dstlen := rfl
@[simp] theorem complete_outlen (n : Nat) (s : State) : (complete n s).outlen = n := rfl
@[simp] theorem complete_result (n : Nat) (s : State) : (complete n s).result = s.result := rfl
@[simp] theorem complete_key (n : Nat) (s : State) : (complete n s).key = s.key := rfl
@[simp] theorem complete_salt (n : Nat) (s : State) : (complete n s).salt = s.salt := rfl
@[simp] theorem complete_data (n : Nat) (s : State) : (complete n s).data = s.data := rfl
@[simp] theorem complete_wiring (n : Nat) (s : State) : (complete n s).wiring = s.wiring := rfl
@[simp] theorem complete_host (n : Nat) (s : State) : (complete n s).host = s.host := rfl
@[simp] theorem complete_rng (n : Nat) (s : State) : (complete n s).rng = s.rng := rfl
@[simp] theorem complete_readData (n : Nat) (s : State) : (complete n s).readData = s.readData := rfl
@[simp] theorem complete_draws (n : Nat) (s : State) : (complete n s).draws = s.draws := rfl

/-! ## Errors -/

@[simp] theorem raise_tab (e : Err) (n : Nat) (s : State) : (raise e n s).tab = s.tab := rfl
@[simp] theorem raise_iv (e : Err) (n : Nat) (s : State) : (raise e n s).iv = s.iv := rfl
@[simp] theorem raise_fsm (e : Err) (n : Nat) (s : State) : (raise e n s).fsm = s.fsm := rfl
@[simp] theorem raise_cmd (e : Err) (n : Nat) (s : State) : (raise e n s).cmd = none := rfl
@[simp] theorem raise_status (e : Err) (n : Nat) (s : State) : (raise e n s).status = e.status := rfl
@[simp] theorem raise_errinfo (e : Err) (n : Nat) (s : State) : (raise e n s).errinfo = n := rfl
@[simp] theorem raise_keylen (e : Err) (n : Nat) (s : State) : (raise e n s).keylen = s.keylen := rfl
@[simp] theorem raise_saltlen (e : Err) (n : Nat) (s : State) : (raise e n s).saltlen = s.saltlen := rfl
@[simp] theorem raise_srclen (e : Err) (n : Nat) (s : State) : (raise e n s).srclen = s.srclen := rfl
@[simp] theorem raise_dstlen (e : Err) (n : Nat) (s : State) : (raise e n s).dstlen = s.dstlen := rfl
@[simp] theorem raise_outlen (e : Err) (n : Nat) (s : State) : (raise e n s).outlen = 0 := rfl
@[simp] theorem raise_result (e : Err) (n : Nat) (s : State) : (raise e n s).result = s.result := rfl
@[simp] theorem raise_key (e : Err) (n : Nat) (s : State) : (raise e n s).key = s.key := rfl
@[simp] theorem raise_salt (e : Err) (n : Nat) (s : State) : (raise e n s).salt = s.salt := rfl
@[simp] theorem raise_data (e : Err) (n : Nat) (s : State) : (raise e n s).data = s.data := rfl
@[simp] theorem raise_wiring (e : Err) (n : Nat) (s : State) : (raise e n s).wiring = s.wiring := rfl
@[simp] theorem raise_host (e : Err) (n : Nat) (s : State) : (raise e n s).host = s.host := rfl
@[simp] theorem raise_rng (e : Err) (n : Nat) (s : State) : (raise e n s).rng = s.rng := rfl
@[simp] theorem raise_readData (e : Err) (n : Nat) (s : State) : (raise e n s).readData = s.readData := rfl
@[simp] theorem raise_draws (e : Err) (n : Nat) (s : State) : (raise e n s).draws = s.draws := rfl

@[simp] theorem raiseFatal_tab (e : Err) (n : Nat) (s : State) : (raiseFatal e n s).tab = s.tab := rfl
@[simp] theorem raiseFatal_iv (e : Err) (n : Nat) (s : State) : (raiseFatal e n s).iv = s.iv := rfl
@[simp] theorem raiseFatal_fsm (e : Err) (n : Nat) (s : State) : (raiseFatal e n s).fsm = .faulted := rfl
@[simp] theorem raiseFatal_cmd (e : Err) (n : Nat) (s : State) : (raiseFatal e n s).cmd = none := rfl
@[simp] theorem raiseFatal_status (e : Err) (n : Nat) (s : State) : (raiseFatal e n s).status = e.status := rfl
@[simp] theorem raiseFatal_errinfo (e : Err) (n : Nat) (s : State) : (raiseFatal e n s).errinfo = n := rfl
@[simp] theorem raiseFatal_keylen (e : Err) (n : Nat) (s : State) : (raiseFatal e n s).keylen = s.keylen := rfl
@[simp] theorem raiseFatal_saltlen (e : Err) (n : Nat) (s : State) : (raiseFatal e n s).saltlen = s.saltlen := rfl
@[simp] theorem raiseFatal_srclen (e : Err) (n : Nat) (s : State) : (raiseFatal e n s).srclen = s.srclen := rfl
@[simp] theorem raiseFatal_dstlen (e : Err) (n : Nat) (s : State) : (raiseFatal e n s).dstlen = s.dstlen := rfl
@[simp] theorem raiseFatal_outlen (e : Err) (n : Nat) (s : State) : (raiseFatal e n s).outlen = 0 := rfl
@[simp] theorem raiseFatal_result (e : Err) (n : Nat) (s : State) : (raiseFatal e n s).result = s.result := rfl
@[simp] theorem raiseFatal_key (e : Err) (n : Nat) (s : State) : (raiseFatal e n s).key = s.key := rfl
@[simp] theorem raiseFatal_salt (e : Err) (n : Nat) (s : State) : (raiseFatal e n s).salt = s.salt := rfl
@[simp] theorem raiseFatal_data (e : Err) (n : Nat) (s : State) : (raiseFatal e n s).data = s.data := rfl
@[simp] theorem raiseFatal_wiring (e : Err) (n : Nat) (s : State) : (raiseFatal e n s).wiring = s.wiring := rfl
@[simp] theorem raiseFatal_host (e : Err) (n : Nat) (s : State) : (raiseFatal e n s).host = s.host := rfl
@[simp] theorem raiseFatal_rng (e : Err) (n : Nat) (s : State) : (raiseFatal e n s).rng = s.rng := rfl
@[simp] theorem raiseFatal_readData (e : Err) (n : Nat) (s : State) : (raiseFatal e n s).readData = s.readData := rfl
@[simp] theorem raiseFatal_draws (e : Err) (n : Nat) (s : State) : (raiseFatal e n s).draws = s.draws := rfl

/-! ## The refusal in `Faulted` -/

@[simp] theorem refuseFaulted_tab (s : State) : (refuseFaulted s).tab = s.tab := rfl
@[simp] theorem refuseFaulted_iv (s : State) : (refuseFaulted s).iv = s.iv := rfl
@[simp] theorem refuseFaulted_fsm (s : State) : (refuseFaulted s).fsm = s.fsm := rfl
@[simp] theorem refuseFaulted_cmd (s : State) : (refuseFaulted s).cmd = none := rfl
@[simp] theorem refuseFaulted_status (s : State) : (refuseFaulted s).status = s.status := rfl
@[simp] theorem refuseFaulted_errinfo (s : State) : (refuseFaulted s).errinfo = s.errinfo := rfl
@[simp] theorem refuseFaulted_keylen (s : State) : (refuseFaulted s).keylen = s.keylen := rfl
@[simp] theorem refuseFaulted_saltlen (s : State) : (refuseFaulted s).saltlen = s.saltlen := rfl
@[simp] theorem refuseFaulted_srclen (s : State) : (refuseFaulted s).srclen = s.srclen := rfl
@[simp] theorem refuseFaulted_dstlen (s : State) : (refuseFaulted s).dstlen = s.dstlen := rfl
@[simp] theorem refuseFaulted_outlen (s : State) : (refuseFaulted s).outlen = s.outlen := rfl
@[simp] theorem refuseFaulted_result (s : State) : (refuseFaulted s).result = s.result := rfl
@[simp] theorem refuseFaulted_key (s : State) : (refuseFaulted s).key = s.key := rfl
@[simp] theorem refuseFaulted_salt (s : State) : (refuseFaulted s).salt = s.salt := rfl
@[simp] theorem refuseFaulted_data (s : State) : (refuseFaulted s).data = s.data := rfl
@[simp] theorem refuseFaulted_wiring (s : State) : (refuseFaulted s).wiring = s.wiring := rfl
@[simp] theorem refuseFaulted_host (s : State) : (refuseFaulted s).host = s.host := rfl
@[simp] theorem refuseFaulted_rng (s : State) : (refuseFaulted s).rng = s.rng := rfl
@[simp] theorem refuseFaulted_readData (s : State) : (refuseFaulted s).readData = s.readData := rfl
@[simp] theorem refuseFaulted_draws (s : State) : (refuseFaulted s).draws = s.draws := rfl

/-! ## Construction -/

@[simp] theorem construct_tab (t : Tables) (s : State) : (construct t s).tab = t := rfl
@[simp] theorem construct_iv (t : Tables) (s : State) : (construct t s).iv = s.iv := rfl
@[simp] theorem construct_fsm (t : Tables) (s : State) : (construct t s).fsm = .keyed := rfl
@[simp] theorem construct_cmd (t : Tables) (s : State) : (construct t s).cmd = none := rfl
@[simp] theorem construct_status (t : Tables) (s : State) : (construct t s).status = statusOk := rfl
@[simp] theorem construct_errinfo (t : Tables) (s : State) : (construct t s).errinfo = 0 := rfl
@[simp] theorem construct_keylen (t : Tables) (s : State) : (construct t s).keylen = s.keylen := rfl
@[simp] theorem construct_saltlen (t : Tables) (s : State) : (construct t s).saltlen = s.saltlen := rfl
@[simp] theorem construct_srclen (t : Tables) (s : State) : (construct t s).srclen = s.srclen := rfl
@[simp] theorem construct_dstlen (t : Tables) (s : State) : (construct t s).dstlen = s.dstlen := rfl
@[simp] theorem construct_outlen (t : Tables) (s : State) : (construct t s).outlen = 0 := rfl
@[simp] theorem construct_result (t : Tables) (s : State) : (construct t s).result = s.result := rfl
@[simp] theorem construct_key (t : Tables) (s : State) : (construct t s).key = s.key := rfl
@[simp] theorem construct_salt (t : Tables) (s : State) : (construct t s).salt = s.salt := rfl
@[simp] theorem construct_data (t : Tables) (s : State) : (construct t s).data = s.data := rfl
@[simp] theorem construct_wiring (t : Tables) (s : State) : (construct t s).wiring = s.wiring := rfl
@[simp] theorem construct_host (t : Tables) (s : State) : (construct t s).host = s.host := rfl
@[simp] theorem construct_rng (t : Tables) (s : State) : (construct t s).rng = s.rng := rfl
@[simp] theorem construct_readData (t : Tables) (s : State) : (construct t s).readData = s.readData := rfl
@[simp] theorem construct_draws (t : Tables) (s : State) : (construct t s).draws = s.draws := rfl

/-! ## Writes to the host buffers -/

@[simp] theorem memWrite_tab (b : Buf) (off : Nat) (bs : List Byte) (s : State) : (s.memWrite b off bs).tab = s.tab := by cases b <;> rfl
@[simp] theorem memWrite_iv (b : Buf) (off : Nat) (bs : List Byte) (s : State) : (s.memWrite b off bs).iv = s.iv := by cases b <;> rfl
@[simp] theorem memWrite_fsm (b : Buf) (off : Nat) (bs : List Byte) (s : State) : (s.memWrite b off bs).fsm = s.fsm := by cases b <;> rfl
@[simp] theorem memWrite_cmd (b : Buf) (off : Nat) (bs : List Byte) (s : State) : (s.memWrite b off bs).cmd = s.cmd := by cases b <;> rfl
@[simp] theorem memWrite_status (b : Buf) (off : Nat) (bs : List Byte) (s : State) : (s.memWrite b off bs).status = s.status := by cases b <;> rfl
@[simp] theorem memWrite_errinfo (b : Buf) (off : Nat) (bs : List Byte) (s : State) : (s.memWrite b off bs).errinfo = s.errinfo := by cases b <;> rfl
@[simp] theorem memWrite_keylen (b : Buf) (off : Nat) (bs : List Byte) (s : State) : (s.memWrite b off bs).keylen = s.keylen := by cases b <;> rfl
@[simp] theorem memWrite_saltlen (b : Buf) (off : Nat) (bs : List Byte) (s : State) : (s.memWrite b off bs).saltlen = s.saltlen := by cases b <;> rfl
@[simp] theorem memWrite_srclen (b : Buf) (off : Nat) (bs : List Byte) (s : State) : (s.memWrite b off bs).srclen = s.srclen := by cases b <;> rfl
@[simp] theorem memWrite_dstlen (b : Buf) (off : Nat) (bs : List Byte) (s : State) : (s.memWrite b off bs).dstlen = s.dstlen := by cases b <;> rfl
@[simp] theorem memWrite_outlen (b : Buf) (off : Nat) (bs : List Byte) (s : State) : (s.memWrite b off bs).outlen = s.outlen := by cases b <;> rfl
@[simp] theorem memWrite_result (b : Buf) (off : Nat) (bs : List Byte) (s : State) : (s.memWrite b off bs).result = s.result := by cases b <;> rfl
@[simp] theorem memWrite_wiring (b : Buf) (off : Nat) (bs : List Byte) (s : State) : (s.memWrite b off bs).wiring = s.wiring := by cases b <;> rfl
@[simp] theorem memWrite_host (b : Buf) (off : Nat) (bs : List Byte) (s : State) : (s.memWrite b off bs).host = s.host := by cases b <;> rfl
@[simp] theorem memWrite_rng (b : Buf) (off : Nat) (bs : List Byte) (s : State) : (s.memWrite b off bs).rng = s.rng := by cases b <;> rfl
@[simp] theorem memWrite_readData (b : Buf) (off : Nat) (bs : List Byte) (s : State) : (s.memWrite b off bs).readData = s.readData := by cases b <;> rfl
@[simp] theorem memWrite_draws (b : Buf) (off : Nat) (bs : List Byte) (s : State) : (s.memWrite b off bs).draws = s.draws := by cases b <;> rfl

@[simp] theorem memWrite_dst_key (off : Nat) (bs : List Byte) (s : State) : (s.memWrite .dst off bs).key = s.key := rfl
@[simp] theorem memWrite_dst_salt (off : Nat) (bs : List Byte) (s : State) : (s.memWrite .dst off bs).salt = s.salt := rfl
@[simp] theorem memWrite_dst_data (off : Nat) (bs : List Byte) (s : State) :
    (s.memWrite .dst off bs).data = memWriteAt s.wiring.dstAddr s.data off bs := rfl

/-! ## Writes to the length registers -/

@[simp] theorem setLenReg_tab (r : LenReg) (v : Nat) (s : State) : (s.setLenReg r v).tab = s.tab := by cases r <;> rfl
@[simp] theorem setLenReg_iv (r : LenReg) (v : Nat) (s : State) : (s.setLenReg r v).iv = s.iv := by cases r <;> rfl
@[simp] theorem setLenReg_fsm (r : LenReg) (v : Nat) (s : State) : (s.setLenReg r v).fsm = s.fsm := by cases r <;> rfl
@[simp] theorem setLenReg_cmd (r : LenReg) (v : Nat) (s : State) : (s.setLenReg r v).cmd = s.cmd := by cases r <;> rfl
@[simp] theorem setLenReg_status (r : LenReg) (v : Nat) (s : State) : (s.setLenReg r v).status = s.status := by cases r <;> rfl
@[simp] theorem setLenReg_errinfo (r : LenReg) (v : Nat) (s : State) : (s.setLenReg r v).errinfo = s.errinfo := by cases r <;> rfl
@[simp] theorem setLenReg_outlen (r : LenReg) (v : Nat) (s : State) : (s.setLenReg r v).outlen = s.outlen := by cases r <;> rfl
@[simp] theorem setLenReg_result (r : LenReg) (v : Nat) (s : State) : (s.setLenReg r v).result = s.result := by cases r <;> rfl
@[simp] theorem setLenReg_key (r : LenReg) (v : Nat) (s : State) : (s.setLenReg r v).key = s.key := by cases r <;> rfl
@[simp] theorem setLenReg_salt (r : LenReg) (v : Nat) (s : State) : (s.setLenReg r v).salt = s.salt := by cases r <;> rfl
@[simp] theorem setLenReg_data (r : LenReg) (v : Nat) (s : State) : (s.setLenReg r v).data = s.data := by cases r <;> rfl
@[simp] theorem setLenReg_wiring (r : LenReg) (v : Nat) (s : State) : (s.setLenReg r v).wiring = s.wiring := by cases r <;> rfl
@[simp] theorem setLenReg_host (r : LenReg) (v : Nat) (s : State) : (s.setLenReg r v).host = s.host := by cases r <;> rfl
@[simp] theorem setLenReg_rng (r : LenReg) (v : Nat) (s : State) : (s.setLenReg r v).rng = s.rng := by cases r <;> rfl
@[simp] theorem setLenReg_readData (r : LenReg) (v : Nat) (s : State) : (s.setLenReg r v).readData = s.readData := by cases r <;> rfl
@[simp] theorem setLenReg_draws (r : LenReg) (v : Nat) (s : State) : (s.setLenReg r v).draws = s.draws := by cases r <;> rfl

@[simp] theorem setLenReg_lenReg (r : LenReg) (v : Nat) (s : State) : (s.setLenReg r v).lenReg r = v := by cases r <;> rfl

/-! ## Reset -/

@[simp] theorem takeReset_tab (s : State) : (takeReset s).tab = unspecifiedTables s.draws := rfl
@[simp] theorem takeReset_iv (s : State) : (takeReset s).iv = unspecifiedIv s.draws := rfl
@[simp] theorem takeReset_fsm (s : State) : (takeReset s).fsm = .unkeyed := rfl
@[simp] theorem takeReset_cmd (s : State) : (takeReset s).cmd = none := rfl
@[simp] theorem takeReset_status (s : State) : (takeReset s).status = 0x00 := rfl
@[simp] theorem takeReset_errinfo (s : State) : (takeReset s).errinfo = 0 := rfl
@[simp] theorem takeReset_keylen (s : State) : (takeReset s).keylen = 0 := rfl
@[simp] theorem takeReset_saltlen (s : State) : (takeReset s).saltlen = 0 := rfl
@[simp] theorem takeReset_srclen (s : State) : (takeReset s).srclen = 0 := rfl
@[simp] theorem takeReset_dstlen (s : State) : (takeReset s).dstlen = 0 := rfl
@[simp] theorem takeReset_outlen (s : State) : (takeReset s).outlen = 0 := rfl
@[simp] theorem takeReset_result (s : State) : (takeReset s).result = 0 := rfl
@[simp] theorem takeReset_key (s : State) : (takeReset s).key = s.key := rfl
@[simp] theorem takeReset_salt (s : State) : (takeReset s).salt = s.salt := rfl
@[simp] theorem takeReset_data (s : State) : (takeReset s).data = dataAfterReset s := rfl
@[simp] theorem takeReset_wiring (s : State) : (takeReset s).wiring = s.wiring := rfl
@[simp] theorem takeReset_host (s : State) : (takeReset s).host = s.host := rfl
@[simp] theorem takeReset_rng (s : State) : (takeReset s).rng = s.rng := rfl
@[simp] theorem takeReset_readData (s : State) : (takeReset s).readData = s.readData := rfl
@[simp] theorem takeReset_draws (s : State) : (takeReset s).draws = s.draws + 1 := rfl

/-! ## Placing a command -/

@[simp] theorem withCommand_tab (c : Byte) (s : State) : (withCommand s c).tab = s.tab := rfl
@[simp] theorem withCommand_iv (c : Byte) (s : State) : (withCommand s c).iv = s.iv := rfl
@[simp] theorem withCommand_fsm (c : Byte) (s : State) : (withCommand s c).fsm = s.fsm := rfl
@[simp] theorem withCommand_cmd (c : Byte) (s : State) : (withCommand s c).cmd = some c := rfl
@[simp] theorem withCommand_status (c : Byte) (s : State) : (withCommand s c).status = s.status := rfl
@[simp] theorem withCommand_errinfo (c : Byte) (s : State) : (withCommand s c).errinfo = s.errinfo := rfl
@[simp] theorem withCommand_keylen (c : Byte) (s : State) : (withCommand s c).keylen = s.keylen := rfl
@[simp] theorem withCommand_saltlen (c : Byte) (s : State) : (withCommand s c).saltlen = s.saltlen := rfl
@[simp] theorem withCommand_srclen (c : Byte) (s : State) : (withCommand s c).srclen = s.srclen := rfl
@[simp] theorem withCommand_dstlen (c : Byte) (s : State) : (withCommand s c).dstlen = s.dstlen := rfl
@[simp] theorem withCommand_outlen (c : Byte) (s : State) : (withCommand s c).outlen = s.outlen := rfl
@[simp] theorem withCommand_result (c : Byte) (s : State) : (withCommand s c).result = s.result := rfl
@[simp] theorem withCommand_key (c : Byte) (s : State) : (withCommand s c).key = s.key := rfl
@[simp] theorem withCommand_salt (c : Byte) (s : State) : (withCommand s c).salt = s.salt := rfl
@[simp] theorem withCommand_data (c : Byte) (s : State) : (withCommand s c).data = s.data := rfl
@[simp] theorem withCommand_wiring (c : Byte) (s : State) : (withCommand s c).wiring = s.wiring := rfl
@[simp] theorem withCommand_host (c : Byte) (s : State) : (withCommand s c).host = holdReset s.host := rfl
@[simp] theorem withCommand_rng (c : Byte) (s : State) : (withCommand s c).rng = s.rng := rfl
@[simp] theorem withCommand_readData (c : Byte) (s : State) : (withCommand s c).readData = s.readData := rfl
@[simp] theorem withCommand_draws (c : Byte) (s : State) : (withCommand s c).draws = s.draws := rfl

end Sys2Proof.Machine
end

