-- ==== Sys2Proof/Laws/Memory.lean ====
section
/-! SUPPORT. The laws of the host buffers: a read after a write, and the canonical form kept by every operation. -/

namespace Sys2Proof.Machine

/-! ## One byte -/

theorem Memory.wfFrom_mono {lo lo' : Nat} {m : Memory} (h : Memory.wfFrom lo m = true) (hl : lo' ≤ lo) :
    Memory.wfFrom lo' m = true := by
  cases m with
  | nil => rfl
  | cons c m => simp only [Memory.wfFrom, Bool.and_eq_true, decide_eq_true_eq] at h ⊢; exact ⟨⟨by omega, h.1.2⟩, h.2⟩

/-- Below the lower bound of a canonical memory nothing is listed. -/
theorem Memory.read_below {lo i : Nat} {m : Memory} (h : Memory.wfFrom lo m = true) (hi : i < lo) :
    m.read i = Memory.unlisted := by
  induction m generalizing lo with
  | nil => rfl
  | cons c m ih =>
    obtain ⟨a, v⟩ := c
    simp only [Memory.wfFrom, Bool.and_eq_true, decide_eq_true_eq] at h
    simp only [Memory.read]
    rw [if_neg (by omega)]
    exact ih h.2 (by omega)

theorem Memory.wfFrom_write {lo : Nat} {m : Memory} (h : Memory.wfFrom lo m = true) (i : Nat) (v : Byte)
    (hi : lo ≤ i) : Memory.wfFrom lo (m.write i v) = true := by
  induction m generalizing lo with
  | nil => by_cases hv : v = Memory.unlisted <;> simp [Memory.write, Memory.wfFrom, hv, hi]
  | cons c m ih =>
    obtain ⟨a, w⟩ := c
    have h' := h
    simp only [Memory.wfFrom, Bool.and_eq_true, decide_eq_true_eq] at h'
    obtain ⟨⟨hlo, hw⟩, hm⟩ := h'
    simp only [Memory.write]
    split
    · split
      · exact h
      · simp only [Memory.wfFrom, Bool.and_eq_true, decide_eq_true_eq]
        exact ⟨⟨hi, ‹_›⟩, ⟨by omega, hw⟩, hm⟩
    · split
      · split
        · exact Memory.wfFrom_mono hm (by omega)
        · simp only [Memory.wfFrom, Bool.and_eq_true, decide_eq_true_eq]
          exact ⟨⟨hi, ‹_›⟩, by subst_vars; exact hm⟩
      · simp only [Memory.wfFrom, Bool.and_eq_true, decide_eq_true_eq]
        exact ⟨⟨hlo, hw⟩, ih hm (by omega)⟩

/-- A byte write keeps the canonical form. -/
theorem Memory.wf_write {m : Memory} (h : m.wf = true) (i : Nat) (v : Byte) : (m.write i v).wf = true :=
  Memory.wfFrom_write h i v (Nat.zero_le i)

theorem Memory.read_write_from {lo : Nat} {m : Memory} (h : Memory.wfFrom lo m = true) (i j : Nat) (v : Byte) :
    (m.write i v).read j = if i = j then v else m.read j := by
  induction m generalizing lo with
  | nil => by_cases hv : v = Memory.unlisted <;> by_cases hij : i = j <;> simp [Memory.write, Memory.read, hv, hij]
  | cons c m ih =>
    obtain ⟨a, w⟩ := c
    simp only [Memory.wfFrom, Bool.and_eq_true, decide_eq_true_eq] at h
    obtain ⟨⟨hlo, hw⟩, hm⟩ := h
    simp only [Memory.write]
    split
    · split
      · subst v
        split
        · subst j
          simp only [Memory.read]
          rw [if_neg (by omega), Memory.read_below hm (by omega)]
        · rfl
      · rfl
    · split
      · subst a
        split
        · subst v
          split
          · subst j; exact Memory.read_below hm (by omega)
          · simp [Memory.read, *]
        · by_cases hij : i = j <;> simp [Memory.read, hij]
      · simp only [Memory.read]
        split
        · rw [if_neg (by omega)]
        · exact ih hm

/-- A read after a write: the byte written at its own index, the old byte everywhere else. -/
theorem Memory.read_write {m : Memory} (h : m.wf = true) (i j : Nat) (v : Byte) :
    (m.write i v).read j = if i = j then v else m.read j := Memory.read_write_from h i j v

/-! ## Byte strings -/

theorem wf_memWriteAt {addr : Nat → Nat} {m : Memory} (h : m.wf = true) (off : Nat) (bs : List Byte) :
    (memWriteAt addr m off bs).wf = true := by
  induction bs generalizing m off with
  | nil => exact h
  | cons b bs ih => exact ih (Memory.wf_write h _ b) _

theorem wf_memPatch {addr : Nat → Nat} {m : Memory} (h : m.wf = true) (ws : List Host.Cell) :
    (memPatch addr m ws).wf = true := by
  induction ws generalizing m with
  | nil => exact h
  | cons w ws ih => exact ih (Memory.wf_write h _ _)

/-- Outside the places written, a string write leaves the storage alone. -/
theorem read_memWriteAt_other {addr : Nat → Nat} {m : Memory} (h : m.wf = true) {off a : Nat} {bs : List Byte}
    (ha : ∀ i < bs.length, a ≠ addr (off + i)) : (memWriteAt addr m off bs).read a = m.read a := by
  induction bs generalizing m off with
  | nil => rfl
  | cons b bs ih =>
    simp only [memWriteAt]
    rw [ih (Memory.wf_write h _ b), Memory.read_write h, if_neg]
    · exact fun e => ha 0 (by simp) (by simpa using e.symm)
    · intro i hi
      have := ha (i + 1) (by simp; omega)
      rwa [Nat.add_right_comm, Nat.add_assoc]

/-- At the places written, the bytes written. -/
theorem read_memWriteAt_same {addr : Nat → Nat} (hinj : ∀ i j, addr i = addr j → i = j) {m : Memory} (h : m.wf = true)
    {off i : Nat} {bs : List Byte} (hi : i < bs.length) :
    (memWriteAt addr m off bs).read (addr (off + i)) = byteAt bs i := by
  induction bs generalizing m off i with
  | nil => simp at hi
  | cons b bs ih =>
    simp only [memWriteAt]
    cases i with
    | zero =>
      rw [read_memWriteAt_other (Memory.wf_write h _ b), Memory.read_write h]
      · simp [byteAt]
      · intro k _ e
        have := hinj _ _ e
        omega
    | succ i =>
      have := ih (Memory.wf_write h (addr off) b) (off := off + 1) (i := i) (by simpa using hi)
      rw [show off + (i + 1) = off + 1 + i by omega, this]
      simp [byteAt]

/-! ## The layout of `SRC` and `DST` -/

theorem Wiring.srcAddr_inj (w : Wiring) : ∀ i j, w.srcAddr i = w.srcAddr j → i = j := by
  cases w <;> simp only [Wiring.srcAddr] <;> omega

theorem Wiring.dstAddr_inj (w : Wiring) : ∀ i j, w.dstAddr i = w.dstAddr j → i = j := by
  cases w <;> simp only [Wiring.dstAddr] <;> omega

/-- Distinct buffers share no place. -/
theorem Wiring.distinct_apart (i j : Nat) : Wiring.distinct.srcAddr i ≠ Wiring.distinct.dstAddr j := by
  simp only [Wiring.srcAddr, Wiring.dstAddr]; omega

theorem State.bufAddr_inj (s : State) (b : Buf) : ∀ i j, s.bufAddr b i = s.bufAddr b j → i = j := by
  cases b
  · exact fun _ _ h => h
  · exact fun _ _ h => h
  · exact s.wiring.srcAddr_inj
  · exact s.wiring.dstAddr_inj

@[simp] theorem State.bufMem_memWrite (s : State) (b : Buf) (off : Nat) (bs : List Byte) :
    (s.memWrite b off bs).bufMem b = memWriteAt (s.bufAddr b) (s.bufMem b) off bs := by cases b <;> rfl

@[simp] theorem State.bufAddr_memWrite (s : State) (b c : Buf) (off : Nat) (bs : List Byte) :
    (s.memWrite b off bs).bufAddr c = s.bufAddr c := by cases b <;> cases c <;> rfl

@[simp] theorem State.length_memRead (s : State) (b : Buf) (off n : Nat) : (s.memRead b off n).length = n := by
  simp [State.memRead]

theorem State.byteAt_memRead (s : State) (b : Buf) {off n i : Nat} (hi : i < n) :
    byteAt (s.memRead b off n) i = s.bufByte b (off + i) := by
  simp [State.memRead, byteAt, List.getD, hi]

theorem State.bufByte_src (s : State) (i : Nat) : s.bufByte .src i = s.srcByte i := rfl

theorem State.bufByte_dst (s : State) (i : Nat) : s.bufByte .dst i = s.dstByte i := rfl

/-- What ENCB, DECB, ENCCBC and DECCBC do to `DST`: the result's bytes at their indices. -/
theorem State.dstByte_memWrite {s : State} (h : s.data.wf = true) {bs : List Byte} {i : Nat} (hi : i < bs.length) :
    (s.memWrite .dst 0 bs).dstByte i = byteAt bs i := by
  have := read_memWriteAt_same s.wiring.dstAddr_inj h (off := 0) hi
  simpa [State.dstByte] using this

end Sys2Proof.Machine
end

