-- ==== Sys2Proof/Laws/Step.lean ====
section
/-! SUPPORT. What a command and a step can do, each said once: every later proof cites these instead of unfolding. -/

namespace Sys2Proof.Machine

/-! ## The frame -/

theorem inFrame_faulted {k : Bool} {body : State → State} {s : State} (h : s.fsm = .faulted) :
    inFrame k body s = .next (refuseFaulted s) := by simp [inFrame, h]

theorem inFrame_notKeyed {body : State → State} {s : State} (h : s.fsm = .unkeyed) :
    inFrame true body s = .next (raise .notKeyed 0 s) := by simp [inFrame, h]

theorem inFrame_keyed {k : Bool} {body : State → State} {s : State} (h : s.fsm = .keyed) :
    inFrame k body s = .next (body s) := by simp [inFrame, h]

theorem inFrame_open {body : State → State} {s : State} (h : s.fsm ≠ .faulted) :
    inFrame false body s = .next (body s) := by simp [inFrame, h]

/-- Which commands need a key: step 3 of 60_exceptions.md rule R179. -/
def commandNeedsKey : Instr → Bool
  | .newc => false
  | .newsc => false
  | .blksz => false
  | .encb => true
  | .decb => true
  | .enccbc => true
  | .deccbc => true

/-- The own rule of each command. -/
def commandBody : Instr → State → State
  | .newc => newcBody
  | .newsc => newscBody
  | .blksz => blkszBody
  | .encb => blockBody encryptBlock
  | .decb => blockBody decryptBlock
  | .enccbc => enccbcBody
  | .deccbc => deccbcBody

theorem exec_eq_inFrame (i : Instr) (s : State) : exec i s = inFrame (commandNeedsKey i) (commandBody i) s := by
  cases i <;> rfl

/-- What a command can do: in `Faulted` nothing; without the key it needs, NOT_KEYED; else its own rule. -/
theorem exec_cases {i : Instr} {s t : State} (h : exec i s = .next t) :
    (s.fsm = .faulted ∧ t = refuseFaulted s) ∨
      (commandNeedsKey i = true ∧ s.fsm = .unkeyed ∧ t = raise .notKeyed 0 s) ∨
      (s.fsm ≠ .faulted ∧ (commandNeedsKey i = true → s.fsm = .keyed) ∧ t = commandBody i s) := by
  rw [exec_eq_inFrame, inFrame] at h
  split at h
  · exact .inl ⟨‹_›, by cases h; rfl⟩
  · split at h
    · exact .inr (.inl ⟨‹_ ∧ _›.1, ‹_ ∧ _›.2, by cases h; rfl⟩)
    · refine .inr (.inr ⟨‹_›, fun hk => ?_, by cases h; rfl⟩)
      cases hs : s.fsm <;> simp_all

/-! ## The commands' own rules -/

/-- What ENCB and DECB can do in `Keyed`. -/
theorem blockBody_cases (f : Tables → Block → Block) (s : State) :
    (s.srclen ≠ 8 ∧ blockBody f s = raiseFatal .bufferContract s.srclen s) ∨
      (s.srclen = 8 ∧ s.dstlen ≠ 8 ∧ blockBody f s = raiseFatal .bufferContract s.dstlen s) ∨
      (s.srclen = 8 ∧ s.dstlen = 8 ∧
        blockBody f s = complete 8 (s.memWrite .dst 0 (f s.tab s.srcBlock).toList)) := by
  unfold blockBody
  by_cases h1 : s.srclen = 8 <;> by_cases h2 : s.dstlen = 8 <;> simp [Config.blockBytes, h1, h2]

/-- What NEWC can do outside `Faulted`. -/
theorem newcBody_cases (s : State) :
    ((1 ≤ s.keylen ∧ s.keylen ≤ 56) ∧ newcBody s = construct (plainSchedule s.key s.keylen) s) ∨
      (¬(1 ≤ s.keylen ∧ s.keylen ≤ 56) ∧ newcBody s = raise .keySize s.keylen s) := by
  unfold newcBody plainKeyOk Config.keyMin Config.keyMax
  by_cases h : 1 ≤ s.keylen ∧ s.keylen ≤ 56 <;> simp [h]

/-- What NEWSC can do outside `Faulted`. -/
theorem newscBody_cases (s : State) :
    (s.saltlen = 0 ∧ newscBody s = newcBody s) ∨
      (s.saltlen ≠ 0 ∧ s.keylen = 0 ∧ newscBody s = raise .keySize s.keylen s) ∨
      (s.saltlen ≠ 0 ∧ s.keylen ≠ 0 ∧
        newscBody s = construct (saltedSchedule s.key s.keylen s.salt s.saltlen) s) := by
  unfold newscBody
  by_cases h1 : s.saltlen = 0 <;> by_cases h2 : s.keylen = 0 <;> simp [h1, h2]

/-- What ENCCBC can do in `Keyed`: wait, fail for want of random bytes, or encrypt. -/
theorem enccbcBody_cases (s : State) :
    (s.rng = [] ∧ enccbcBody s = s) ∨
      ∃ a rest, s.rng = a :: rest ∧
        ((a.good = false ∧ enccbcBody s = raise .rngFailure a.n.val { s with rng := rest }) ∨
          (a.good = true ∧ enccbcBody s = complete (cbcEncrypt s.tab a.bytes s.srcBytes).length
            ({ s with rng := rest, iv := a.bytes }.memWrite .dst 0 (cbcEncrypt s.tab a.bytes s.srcBytes)))) := by
  unfold enccbcBody enccbcAnswered
  cases h : s.rng with
  | nil => exact .inl ⟨rfl, rfl⟩
  | cons a rest =>
    refine .inr ⟨a, rest, rfl, ?_⟩
    cases hg : a.good
    · exact .inl ⟨rfl, by simp [hg]⟩
    · exact .inr ⟨rfl, by simp only [hg, if_true]; rfl⟩

/-- What DECCBC can do in `Keyed`. -/
theorem deccbcBody_cases (s : State) :
    ((s.srclen % 8 ≠ 0 ∨ s.srclen < 16) ∧ deccbcBody s = raise .malformedInput s.srclen s) ∨
      (s.srclen % 8 = 0 ∧ 16 ≤ s.srclen ∧
        deccbcBody s = complete (cbcDecrypt s.tab s.srcBytes).length
          ({ s with iv := blockAt s.srcBytes 0 }.memWrite .dst 0 (cbcDecrypt s.tab s.srcBytes))) := by
  unfold deccbcBody Config.cbcMinLen
  by_cases h : s.srclen % 8 ≠ 0 ∨ s.srclen < 16
  · exact .inl ⟨h, by rw [if_pos h]⟩
  · exact .inr ⟨by omega, by omega, by rw [if_neg h]⟩

/-! ## One step -/

/-- What a code can be (30_encoding.md rules R61, R63): the code of one command, or reserved. -/
theorem decode_cases (c : Byte) :
    (∃ i, decode c = .command i ∧ c = encode i) ∨ (decode c = .reserved c ∧ (c = 0x00 ∨ 8 ≤ c.toNat)) := by
  unfold decode
  split_ifs with h1 h2 h3 h4 h5 h6 h7
  iterate 7 exact .inl ⟨_, rfl, by assumption⟩
  refine .inr ⟨rfl, ?_⟩
  simp [← BitVec.toNat_inj] at h1 h2 h3 h4 h5 h6 h7 ⊢
  omega

/-- A command in execution whose host does not reset runs its code. -/
theorem step_executing {s : State} {c : Byte} (h : s.cmd = some c) (ha : hostActs s = false) :
    step s = runCode c s := by simp [step, ha, h]

/-- An idle core takes the host's next move. -/
theorem step_idle {s : State} {m : HostMove} {rest : List HostMove} (h : s.cmd = none) (hm : s.host = m :: rest) :
    step s = .next (applyMove m { s with host := rest }) := by
  have : hostActs s = true := by unfold hostActs; rw [hm]; cases m <;> simp [h]
  simp [step, this, takeHostMove, hm]

/-- A reset lands whether or not a command is executing. -/
theorem step_reset {s : State} {rest : List HostMove} (hm : s.host = .reset :: rest) :
    step s = .next (takeReset { s with host := rest }) := by
  have : hostActs s = true := by unfold hostActs; rw [hm]
  simp [step, this, takeHostMove, hm, applyMove]

/-- What a step can do: a move of the host, the executing command, a reserved code, or nothing. -/
theorem step_cases {s t : State} (h : step s = .next t) :
    (hostActs s = true ∧ t = takeHostMove s) ∨
      (hostActs s = false ∧ ∃ c i, s.cmd = some c ∧ decode c = .command i ∧ exec i s = .next t) ∨
      (hostActs s = false ∧ ∃ c k, s.cmd = some c ∧ decode c = .reserved k ∧ execReserved k s = .next t) ∨
      (hostActs s = false ∧ s.cmd = none ∧ t = s) := by
  unfold step runCode at h
  split at h
  · exact .inl ⟨‹_›, by cases h; rfl⟩
  · have hn : hostActs s = false := by simpa using ‹¬hostActs s = true›
    split at h
    · split at h
      · exact .inr (.inl ⟨hn, _, _, ‹_›, ‹_›, h⟩)
      · exact .inr (.inr (.inl ⟨hn, _, _, ‹_›, ‹_›, h⟩))
    · exact .inr (.inr (.inr ⟨hn, ‹_›, by cases h; rfl⟩))

/-- What a reserved code can do. -/
theorem execReserved_cases {k : Byte} {s t : State} (h : execReserved k s = .next t) :
    (s.fsm = .faulted ∧ t = refuseFaulted s) ∨ (s.fsm ≠ .faulted ∧ t = raise .illegalCommand k.toNat s) := by
  unfold execReserved at h
  split at h
  · exact .inl ⟨‹_›, by cases h; rfl⟩
  · exact .inr ⟨‹_›, by cases h; rfl⟩

/-- While a command is executing only a reset of the host's lands. -/
theorem hostActs_executing {s : State} {c : Byte} (h : s.cmd = some c) (ha : hostActs s = true) :
    ∃ rest, s.host = .reset :: rest := by
  unfold hostActs at ha
  split at ha
  · cases ha
  · exact ⟨_, ‹_›⟩
  · simp [h] at ha

/-- A command is executing and the host's next move is no reset: no move lands. -/
theorem hostActs_of_executing {s : State} {c : Byte} (h : s.cmd = some c) (hn : ∀ rest, s.host ≠ .reset :: rest) :
    hostActs s = false := by
  cases ha : hostActs s
  · rfl
  · exact absurd (hostActs_executing h ha) (by simpa using hn)

/-- What no command touches: the host's operands, its pending moves, and the model's own bookkeeping (10_state.md rule
R16, "the core never writes registers 3 to 6"). -/
theorem commandBody_keeps (i : Instr) (s : State) :
    (commandBody i s).host = s.host ∧ (commandBody i s).key = s.key ∧ (commandBody i s).salt = s.salt ∧
      (commandBody i s).keylen = s.keylen ∧ (commandBody i s).saltlen = s.saltlen ∧
      (commandBody i s).srclen = s.srclen ∧ (commandBody i s).dstlen = s.dstlen ∧
      (commandBody i s).wiring = s.wiring ∧ (commandBody i s).readData = s.readData ∧
      (commandBody i s).draws = s.draws := by
  have hn : ∀ s, newcBody s = construct (plainSchedule s.key s.keylen) s ∨ newcBody s = raise .keySize s.keylen s :=
    fun s => (newcBody_cases s).imp And.right And.right
  cases i <;> simp only [commandBody]
  · rcases hn s with h | h <;> rw [h] <;> simp
  · rcases newscBody_cases s with ⟨_, h⟩ | ⟨_, _, h⟩ | ⟨_, _, h⟩ <;> rw [h]
    · rcases hn s with h | h <;> rw [h] <;> simp
    all_goals simp
  · simp [blkszBody]
  · rcases blockBody_cases encryptBlock s with ⟨_, h⟩ | ⟨_, _, h⟩ | ⟨_, _, h⟩ <;> rw [h] <;> simp
  · rcases blockBody_cases decryptBlock s with ⟨_, h⟩ | ⟨_, _, h⟩ | ⟨_, _, h⟩ <;> rw [h] <;> simp
  · rcases enccbcBody_cases s with ⟨_, h⟩ | ⟨a, r, _, ⟨_, h⟩ | ⟨_, h⟩⟩ <;> rw [h] <;> simp
  · rcases deccbcBody_cases s with ⟨_, h⟩ | ⟨_, _, h⟩ <;> rw [h] <;> simp

/-- What the own rule of a command can end in, one line per kind of outcome: a construction, a recoverable error, the
fatal error, BLKSZ's result, a block written, a wait for the RNG, a failed RNG read, a CBC result written. -/
theorem commandBody_cases (i : Instr) (s : State) :
    (∃ t, Safety.Builds i s t ∧ commandBody i s = construct t s) ∨
      (∃ e n, e ≠ Err.bufferContract ∧ e ≠ Err.rngFailure ∧ commandBody i s = raise e n s) ∨
      (∃ n, (i = .encb ∨ i = .decb) ∧ (s.srclen ≠ 8 ∨ s.dstlen ≠ 8) ∧
        commandBody i s = raiseFatal .bufferContract n s) ∨
      (i = .blksz ∧ commandBody i s = complete 0 { s with result := 8 }) ∨
      (∃ n bs, (i = .encb ∨ i = .decb) ∧ commandBody i s = complete n (s.memWrite .dst 0 bs)) ∨
      (i = .enccbc ∧ s.rng = [] ∧ commandBody i s = s) ∨
      (∃ n, i = .enccbc ∧ n ≤ 8 ∧ commandBody i s = raise .rngFailure n { s with rng := s.rng.tail }) ∨
      (∃ n iv rest bs, (i = .enccbc ∨ i = .deccbc) ∧
        commandBody i s = complete n ({ s with iv := iv, rng := rest }.memWrite .dst 0 bs)) := by
  have hb : ∀ f, (∃ n, (s.srclen ≠ 8 ∨ s.dstlen ≠ 8) ∧ blockBody f s = raiseFatal .bufferContract n s) ∨
      ∃ n bs, blockBody f s = complete n (s.memWrite .dst 0 bs) := by
    intro f
    rcases blockBody_cases f s with ⟨a, h⟩ | ⟨_, a, h⟩ | ⟨_, _, h⟩
    · exact .inl ⟨_, .inl a, h⟩
    · exact .inl ⟨_, .inr a, h⟩
    · exact .inr ⟨_, _, h⟩
  cases i <;> simp only [commandBody]
  case newc =>
    rcases newcBody_cases s with ⟨⟨a, b⟩, h⟩ | ⟨_, h⟩
    · exact .inl ⟨_, .inl ⟨a, b, .inl rfl, rfl⟩, h⟩
    · exact .inr (.inl ⟨_, _, by decide, by decide, h⟩)
  case newsc =>
    rcases newscBody_cases s with ⟨z, h⟩ | ⟨_, _, h⟩ | ⟨a, b, h⟩ <;> rw [h]
    · rcases newcBody_cases s with ⟨⟨a, b⟩, h⟩ | ⟨_, h⟩
      · exact .inl ⟨_, .inl ⟨a, b, .inr ⟨rfl, z⟩, rfl⟩, h⟩
      · exact .inr (.inl ⟨_, _, by decide, by decide, h⟩)
    · exact .inr (.inl ⟨_, _, by decide, by decide, rfl⟩)
    · exact .inl ⟨_, .inr ⟨by omega, by omega, rfl, rfl⟩, rfl⟩
  case blksz => exact .inr (.inr (.inr (.inl ⟨trivial, rfl⟩)))
  case encb =>
    rcases hb encryptBlock with ⟨n, a, h⟩ | ⟨n, bs, h⟩
    · exact .inr (.inr (.inl ⟨n, by simp, a, h⟩))
    · exact .inr (.inr (.inr (.inr (.inl ⟨n, bs, by simp, h⟩))))
  case decb =>
    rcases hb decryptBlock with ⟨n, a, h⟩ | ⟨n, bs, h⟩
    · exact .inr (.inr (.inl ⟨n, by simp, a, h⟩))
    · exact .inr (.inr (.inr (.inr (.inl ⟨n, bs, by simp, h⟩))))
  case enccbc =>
    rcases enccbcBody_cases s with ⟨he, h⟩ | ⟨a, r, hr, ⟨_, h⟩ | ⟨_, h⟩⟩
    · exact .inr (.inr (.inr (.inr (.inr (.inl ⟨trivial, he, h⟩)))))
    · exact .inr (.inr (.inr (.inr (.inr (.inr (.inl ⟨a.n.val, trivial, by omega, by rw [h, hr]; rfl⟩))))))
    · exact .inr (.inr (.inr (.inr (.inr (.inr (.inr ⟨_, _, r, _, by simp, h⟩))))))
  case deccbc =>
    rcases deccbcBody_cases s with ⟨_, h⟩ | ⟨_, _, h⟩
    · exact .inr (.inl ⟨_, _, by decide, by decide, h⟩)
    · exact .inr (.inr (.inr (.inr (.inr (.inr (.inr ⟨_, _, s.rng, _, by simp, h⟩))))))

/-- What a move of the host can do to the core: reset it, or leave every register the host cannot write alone. -/
theorem takeHostMove_cases {s : State} (h : hostActs s = true) :
    (∃ rest, s.host = .reset :: rest ∧ takeHostMove s = takeReset { s with host := rest }) ∨
      ((takeHostMove s).fsm = s.fsm ∧ (takeHostMove s).tab = s.tab ∧ (takeHostMove s).iv = s.iv ∧
        (takeHostMove s).status = s.status ∧ (takeHostMove s).errinfo = s.errinfo ∧
        (takeHostMove s).outlen = s.outlen ∧ (takeHostMove s).result = s.result ∧
        (Safety.storagesWf s = true → Safety.storagesWf (takeHostMove s) = true)) := by
  unfold takeHostMove
  cases hm : s.host with
  | nil => simp [hostActs, hm] at h
  | cons m rest =>
    cases m with
    | reset => exact .inl ⟨rest, rfl, rfl⟩
    | writeBuf b off bs =>
      refine .inr ⟨by simp [applyMove], by simp [applyMove], by simp [applyMove], by simp [applyMove],
        by simp [applyMove], by simp [applyMove], by simp [applyMove], fun hw => ?_⟩
      simp only [Safety.storagesWf, Bool.and_eq_true, applyMove] at hw ⊢
      cases b <;> simp [State.memWrite, State.setBufMem, State.bufMem, hw, wf_memWriteAt]
    | writeLen r v => right; cases r <;> simp [applyMove, State.setLenReg, Safety.storagesWf]
    | readReg r => right; cases r <;> simp [applyMove, readReg, Safety.storagesWf]
    | _ => right; simp [applyMove, Safety.storagesWf]

/-- A command that builds tables needs no key and ends as a construction of those tables. -/
theorem commandBody_of_builds {i : Instr} {s : State} {t : Tables} (h : Safety.Builds i s t) :
    commandNeedsKey i = false ∧ commandBody i s = construct t s := by
  rcases h with ⟨a, b, hi, rfl⟩ | ⟨a, b, rfl, rfl⟩
  · have hn : newcBody s = construct (plainSchedule s.key s.keylen) s := by
      rcases newcBody_cases s with ⟨_, h⟩ | ⟨h, _⟩
      · exact h
      · exact absurd ⟨a, b⟩ h
    rcases hi with rfl | ⟨rfl, z⟩
    · exact ⟨rfl, hn⟩
    · rcases newscBody_cases s with ⟨_, h⟩ | ⟨h, _⟩ | ⟨h, _⟩
      · exact ⟨rfl, h.trans hn⟩
      · exact absurd z h
      · exact absurd z h
  · rcases newscBody_cases s with ⟨h, _⟩ | ⟨_, h, _⟩ | ⟨_, _, h⟩
    · omega
    · omega
    · exact ⟨rfl, h⟩

/-- What a step that constructs does. -/
theorem step_of_constructs {s : State} {t : Tables} (h : Safety.Constructs s t) : step s = .next (construct t s) := by
  obtain ⟨hf, hr, i, hc, hb⟩ := h
  obtain ⟨hk, he⟩ := commandBody_of_builds hb
  have hd : decode (encode i) = .command i := by cases i <;> rfl
  rw [step_executing hc (hostActs_of_executing hc hr), runCode, hd]
  simp only [exec_eq_inFrame, hk, inFrame_open hf, he]

end Sys2Proof.Machine
end

