-- ==== Sys2Proof/Laws/Transform.lean ====
section
/-! SUPPORT. The block transforms: each round undone by itself on the swapped pair, and blocks as word pairs. -/

namespace Sys2Proof.Machine

/-- `Round` is its own inverse in the active word (40_round_transform.md rule R82). -/
@[simp] theorem round_round (t : Tables) (a b k : Word) : round t (round t a b k) b k = a := by
  simp only [round]
  rw [BitVec.xor_assoc, BitVec.xor_assoc, BitVec.xor_comm (F t b) k, BitVec.xor_assoc, ← BitVec.xor_assoc k k]
  simp

/-- A round of `DecryptWords` undoes the round of `EncryptWords` with the same subkey, the word pair being swapped. -/
theorem decRound_encRound (t : Tables) (x : Word × Word) (n : Fin 18) :
    decRound t (encRound t x n).swap n = x.swap := by
  obtain ⟨l, r⟩ := x
  rcases Nat.mod_two_eq_zero_or_one n.val with h | h <;> simp [encRound, decRound, h]

/-- A round of `EncryptWords` undoes the round of `DecryptWords` with the same subkey, the word pair being swapped. -/
theorem encRound_decRound (t : Tables) (x : Word × Word) (n : Fin 18) :
    encRound t (decRound t x n).swap n = x.swap := by
  obtain ⟨l, r⟩ := x
  rcases Nat.mod_two_eq_zero_or_one n.val with h | h <;> simp [encRound, decRound, h]

/-- Any list of rounds is undone by the inverse rounds in reverse order. -/
theorem foldl_decRound_encRound (t : Tables) (ns : List (Fin 18)) (x : Word × Word) :
    ns.reverse.foldl (decRound t) (ns.foldl (encRound t) x).swap = x.swap := by
  induction ns generalizing x with
  | nil => rfl
  | cons n ns ih =>
    rw [List.reverse_cons, List.foldl_append]
    change decRound t (List.foldl (decRound t) (List.foldl (encRound t) (encRound t x n) ns).swap ns.reverse) n = _
    rw [ih, decRound_encRound]

/-- And the other way round. -/
theorem foldl_encRound_decRound (t : Tables) (ns : List (Fin 18)) (x : Word × Word) :
    ns.foldl (encRound t) (ns.reverse.foldl (decRound t) x).swap = x.swap := by
  induction ns generalizing x with
  | nil => rfl
  | cons n ns ih =>
    rw [List.reverse_cons, List.foldl_append, List.foldl_cons]
    change List.foldl (encRound t) (encRound t (decRound t _ n).swap n) ns = _
    rw [encRound_decRound, ih]

/-! ## Blocks and word pairs -/

theorem toNat_be32 (a b c d : Byte) :
    (be32 a b c d).toNat = a.toNat * 2 ^ 24 + b.toNat * 2 ^ 16 + c.toNat * 2 ^ 8 + d.toNat := by
  have hb := b.isLt; have hc := c.isLt; have hd := d.isLt
  simp only [be32, BitVec.toNat_append]
  rw [← Nat.shiftLeft_add_eq_or_of_lt hb, ← Nat.shiftLeft_add_eq_or_of_lt hc, ← Nat.shiftLeft_add_eq_or_of_lt hd]
  simp only [Nat.shiftLeft_eq]; omega

theorem toNat_byte3 (w : Word) : (byte3 w).toNat = w.toNat / 2 ^ 24 := by
  have := w.isLt
  simp only [byte3, BitVec.extractLsb'_toNat, Nat.shiftRight_eq_div_pow]; omega

theorem toNat_byte2 (w : Word) : (byte2 w).toNat = w.toNat / 2 ^ 16 % 256 := by
  simp only [byte2, BitVec.extractLsb'_toNat, Nat.shiftRight_eq_div_pow]

theorem toNat_byte1 (w : Word) : (byte1 w).toNat = w.toNat / 2 ^ 8 % 256 := by
  simp only [byte1, BitVec.extractLsb'_toNat, Nat.shiftRight_eq_div_pow]

theorem toNat_byte0 (w : Word) : (byte0 w).toNat = w.toNat % 256 := by
  simp only [byte0, BitVec.extractLsb'_toNat, Nat.shiftRight_zero]

/-- `BE32` of the four bytes of a word is the word. -/
theorem be32_bytes (w : Word) : be32 (byte3 w) (byte2 w) (byte1 w) (byte0 w) = w := by
  apply BitVec.eq_of_toNat_eq
  rw [toNat_be32, toNat_byte3, toNat_byte2, toNat_byte1, toNat_byte0]; omega

/-- The bytes of `BE32(a, b, c, d)` are `a`, `b`, `c`, `d`. -/
theorem bytes_be32 (a b c d : Byte) :
    byte3 (be32 a b c d) = a ∧ byte2 (be32 a b c d) = b ∧ byte1 (be32 a b c d) = c ∧ byte0 (be32 a b c d) = d := by
  have hb := b.isLt; have hc := c.isLt; have hd := d.isLt; have ha := a.isLt
  refine ⟨?_, ?_, ?_, ?_⟩ <;> apply BitVec.eq_of_toNat_eq
  · rw [toNat_byte3, toNat_be32]; omega
  · rw [toNat_byte2, toNat_be32]; omega
  · rw [toNat_byte1, toNat_be32]; omega
  · rw [toNat_byte0, toNat_be32]; omega

@[simp] theorem blockWords_wordsBlock (w : Word × Word) : blockWords (wordsBlock w) = w := by
  obtain ⟨l, r⟩ := w
  simp only [blockWords, wordsBlock, Vector.getElem_mk, List.getElem_toArray, List.getElem_cons_zero,
    List.getElem_cons_succ, be32_bytes]

/-- A block is determined by its 8 bytes. -/
theorem block_ext {a b : Block} (h0 : a[0] = b[0]) (h1 : a[1] = b[1]) (h2 : a[2] = b[2]) (h3 : a[3] = b[3])
    (h4 : a[4] = b[4]) (h5 : a[5] = b[5]) (h6 : a[6] = b[6]) (h7 : a[7] = b[7]) : a = b := by
  apply Vector.ext
  intro i hi
  have : i = 0 ∨ i = 1 ∨ i = 2 ∨ i = 3 ∨ i = 4 ∨ i = 5 ∨ i = 6 ∨ i = 7 := by omega
  rcases this with rfl | rfl | rfl | rfl | rfl | rfl | rfl | rfl <;> assumption

@[simp] theorem wordsBlock_blockWords (b : Block) : wordsBlock (blockWords b) = b := by
  obtain ⟨a0, a1, a2, a3⟩ := bytes_be32 b[0] b[1] b[2] b[3]
  obtain ⟨a4, a5, a6, a7⟩ := bytes_be32 b[4] b[5] b[6] b[7]
  apply block_ext <;> simp only [blockWords, wordsBlock, Vector.getElem_mk, List.getElem_toArray,
    List.getElem_cons_zero, List.getElem_cons_succ] <;> assumption

/-! ## The exclusive or of blocks -/

/-- XORing a block twice with the same block gives it back. -/
theorem xorBlock_xorBlock (a b : Block) : xorBlock (xorBlock a b) b = a := by
  apply block_ext <;> simp [xorBlock]

end Sys2Proof.Machine
end

