-- ==== Sys2Proof/Laws/Cbc.lean ====
section
/-! SUPPORT. The CBC work buffer: bytes and blocks of a list after a block is put into it, and what the chaining loops
leave alone. -/

namespace Sys2Proof.Machine

/-! ## Blocks of a byte list -/

@[simp] theorem length_putBlock {bs : List Byte} {off : Nat} (h : off + 8 ≤ bs.length) (b : Block) :
    (putBlock bs off b).length = bs.length := by
  simp [putBlock]; omega

theorem byteAt_putBlock_in {bs : List Byte} {off k : Nat} (h : off + 8 ≤ bs.length) (b : Block) (hk : k < 8) :
    byteAt (putBlock bs off b) (off + k) = b[k] := by
  have h1 : (bs.take off).length = off := by simp; omega
  simp only [byteAt, putBlock, List.getD_eq_getElem?_getD, List.append_assoc]
  rw [List.getElem?_append_right (by omega), h1, List.getElem?_append_left (by simp; omega)]
  simp [hk]

theorem byteAt_putBlock_out {bs : List Byte} {off i : Nat} (h : off + 8 ≤ bs.length) (b : Block)
    (hi : i < off ∨ off + 8 ≤ i) : byteAt (putBlock bs off b) i = byteAt bs i := by
  have h1 : (bs.take off).length = off := by simp; omega
  simp only [byteAt, putBlock, List.getD_eq_getElem?_getD, List.append_assoc]
  rcases hi with hi | hi
  · rw [List.getElem?_append_left (by omega), List.getElem?_take_of_lt hi]
  · rw [List.getElem?_append_right (by omega), h1, List.getElem?_append_right (by simp; omega)]
    simp only [List.getElem?_drop, Vector.length_toList]
    congr 2; omega

/-- Two lists with the same 8 bytes have the same block. -/
theorem blockAt_congr {bs cs : List Byte} {off off' : Nat} (h : ∀ k < 8, byteAt bs (off + k) = byteAt cs (off' + k)) :
    blockAt bs off = blockAt cs off' := by
  have h0 := h 0 (by omega)
  simp only [Nat.add_zero] at h0
  simp only [blockAt, h0, h 1 (by omega), h 2 (by omega), h 3 (by omega), h 4 (by omega), h 5 (by omega),
    h 6 (by omega), h 7 (by omega)]

theorem getElem_blockAt (bs : List Byte) (off : Nat) {k : Nat} (hk : k < 8) : (blockAt bs off)[k] = byteAt bs (off + k) := by
  have : k = 0 ∨ k = 1 ∨ k = 2 ∨ k = 3 ∨ k = 4 ∨ k = 5 ∨ k = 6 ∨ k = 7 := by omega
  rcases this with rfl | rfl | rfl | rfl | rfl | rfl | rfl | rfl <;> rfl

theorem blockAt_putBlock_same {bs : List Byte} {off : Nat} (h : off + 8 ≤ bs.length) (b : Block) :
    blockAt (putBlock bs off b) off = b := by
  apply Vector.ext
  intro k hk
  rw [getElem_blockAt _ _ hk, byteAt_putBlock_in h b hk]

theorem blockAt_putBlock_other {bs : List Byte} {off off' : Nat} (h : off + 8 ≤ bs.length) (b : Block)
    (ho : off' + 8 ≤ off ∨ off + 8 ≤ off') : blockAt (putBlock bs off b) off' = blockAt bs off' :=
  blockAt_congr fun k hk => byteAt_putBlock_out h b (by omega)

/-! ## The chaining loops -/

theorem length_encLoop (t : Tables) (k off : Nat) (buf : List Byte) (h : off + 8 * k ≤ buf.length) :
    (encLoop t k off buf).length = buf.length := by
  induction k generalizing off buf with
  | zero => rfl
  | succ k ih => simp only [encLoop]; rw [ih _ _ (by rw [length_putBlock (by omega)]; omega), length_putBlock (by omega)]

theorem length_decLoop (t : Tables) (k off : Nat) (chain : Block) (buf : List Byte) (h : off + 8 * k ≤ buf.length) :
    (decLoop t k off chain buf).length = buf.length := by
  induction k generalizing off buf chain with
  | zero => rfl
  | succ k ih => simp only [decLoop]; rw [ih _ _ _ (by rw [length_putBlock (by omega)]; omega), length_putBlock (by omega)]

/-- The chaining loop of ENCCBC leaves the bytes before its first block alone. -/
theorem byteAt_encLoop_below (t : Tables) (k off : Nat) (buf : List Byte) (h : off + 8 * k ≤ buf.length) {i : Nat}
    (hi : i < off) : byteAt (encLoop t k off buf) i = byteAt buf i := by
  induction k generalizing off buf with
  | zero => rfl
  | succ k ih =>
    simp only [encLoop]
    rw [ih _ _ (by rw [length_putBlock (by omega)]; omega) (by omega), byteAt_putBlock_out (by omega) _ (by omega)]

/-- The block loop of DECCBC leaves the bytes before its first block alone. -/
theorem byteAt_decLoop_below (t : Tables) (k off : Nat) (chain : Block) (buf : List Byte)
    (h : off + 8 * k ≤ buf.length) {i : Nat} (hi : i < off) : byteAt (decLoop t k off chain buf) i = byteAt buf i := by
  induction k generalizing off buf chain with
  | zero => rfl
  | succ k ih =>
    simp only [decLoop]
    rw [ih _ _ _ (by rw [length_putBlock (by omega)]; omega) (by omega), byteAt_putBlock_out (by omega) _ (by omega)]

/-- The work buffer of ENCCBC has `8 + 8*(n div 8 + 1)` bytes (43_cbc.md rules R153, R154). -/
@[simp] theorem length_buildBuf (iv : Block) (src : List Byte) :
    (buildBuf iv src).length = 8 + 8 * (src.length / 8 + 1) := by
  simp [buildBuf, padCount]; omega

/-- The result of ENCCBC has that length too. -/
@[simp] theorem length_cbcEncrypt (t : Tables) (iv : Block) (src : List Byte) :
    (cbcEncrypt t iv src).length = 8 + 8 * (src.length / 8 + 1) := by
  unfold cbcEncrypt
  rw [length_encLoop _ _ _ _ (by rw [length_buildBuf]), length_buildBuf]

/-! ## The unpadder -/

/-- What `Unpad`'s scan does (43_cbc.md rule R144): it stops at `e` or below, never below 8, everything it passed is `v`,
and the byte it stopped at is not. -/
theorem unpadScan_spec (buf : List Byte) (v : Byte) (e : Nat) (he : 8 ≤ e) :
    8 ≤ unpadScan buf v e ∧ unpadScan buf v e ≤ e ∧
      (∀ i, unpadScan buf v e ≤ i → i < e → byteAt buf i = v) ∧
      (8 < unpadScan buf v e → byteAt buf (unpadScan buf v e - 1) ≠ v) := by
  induction e with
  | zero => omega
  | succ e ih =>
    simp only [unpadScan]
    split
    · obtain ⟨h1, h2, h3, h4⟩ := ih (by omega)
      refine ⟨h1, by omega, fun i hl hi => ?_, h4⟩
      rcases Nat.lt_succ_iff_lt_or_eq.mp hi with hlt | rfl
      · exact h3 i hl hlt
      · rename_i hc
        exact hc.2
    · rename_i hn
      exact ⟨he, Nat.le_refl _, fun i hl hi => by omega, fun h8 hv => hn ⟨h8, by simpa using hv⟩⟩

end Sys2Proof.Machine
end

