-- ==== Sys2Proof/Laws/PerInstr.lean ====
section
/-! SUPPORT. Statements made per command: the round trip of each command's encoding. -/

namespace Sys2Proof.Laws.RoundTrip

/-- The command is well formed, and its code decodes to it. -/
def Statement (i : Instr) : Prop := i.wellFormed = true ∧ decode (encode i) = .command i

theorem newc : Statement .newc := ⟨rfl, rfl⟩
theorem newsc : Statement .newsc := ⟨rfl, rfl⟩
theorem blksz : Statement .blksz := ⟨rfl, rfl⟩
theorem encb : Statement .encb := ⟨rfl, rfl⟩
theorem decb : Statement .decb := ⟨rfl, rfl⟩
theorem enccbc : Statement .enccbc := ⟨rfl, rfl⟩
theorem deccbc : Statement .deccbc := ⟨rfl, rfl⟩

end Sys2Proof.Laws.RoundTrip
end

