-- ==== Sys2Proof/Laws/Schedule.lean ====
section
/-! SUPPORT. The key schedules: the circular reader in closed form, and a loop over `0..n-1` as a sequence of states. -/

namespace Sys2Proof.Machine

/-- A loop over `0..n-1` ends in `st n` when `st` is the sequence of the states it goes through. -/
theorem foldl_finRange {σ : Type} {n : Nat} (f : σ → Fin n → σ) (st : Nat → σ)
    (h : ∀ i (hi : i < n), st (i + 1) = f (st i) ⟨i, hi⟩) : (List.finRange n).foldl f (st 0) = st n := by
  induction n generalizing st with
  | zero => simp
  | succ n ih =>
    rw [List.finRange_succ, List.foldl_cons, List.foldl_map]
    have h0 : f (st 0) 0 = st 1 := (h 0 (by omega)).symm
    rw [h0]
    exact ih (fun x i => f x i.succ) (fun i => st (i + 1)) fun i hi => h (i + 1) (by omega)

/-- A property that every turn of a loop keeps holds at its end. -/
theorem foldl_keeps {σ α : Type} {p : σ → Prop} {f : σ → α → σ} {l : List α} {x : σ} (h : ∀ x a, p x → p (f x a))
    (hx : p x) : p (l.foldl f x) := by
  induction l generalizing x with
  | nil => exact hx
  | cons a l ih => exact ih (h x a hx)

theorem nextByte_bytes (buf : Memory) (n j : Nat) (a b c d : Byte) :
    nextByte buf n (be32 a b c d, j) = (be32 b c d (buf.read j), (j + 1) % n) := by
  have ha := a.isLt; have hb := b.isLt; have hc := c.isLt; have hd := d.isLt; have hr := (buf.read j).isLt
  simp only [nextByte, Prod.mk.injEq, and_true]
  apply BitVec.eq_of_toNat_eq
  rw [BitVec.toNat_append, ← Nat.shiftLeft_add_eq_or_of_lt hr, BitVec.extractLsb'_toNat, toNat_be32, toNat_be32]
  simp only [Nat.shiftLeft_eq, Nat.shiftRight_zero]; omega

/-- `NextWord` in closed form (00_scope.md rule R8). -/
theorem nextWord_eq (buf : Memory) (n j : Nat) :
    nextWord buf n j =
      (be32 (buf.read j) (buf.read ((j + 1) % n)) (buf.read ((j + 2) % n)) (buf.read ((j + 3) % n)), (j + 4) % n) := by
  have h0 : (0 : Word) = be32 0 0 0 0 := by decide
  have e1 : ∀ k, ((j + k) % n + 1) % n = (j + (k + 1)) % n := fun k => by rw [Nat.mod_add_mod]; rfl
  unfold nextWord
  rw [h0, nextByte_bytes, nextByte_bytes, nextByte_bytes, nextByte_bytes, e1 1, e1 2, e1 3]

/-- The plain schedule from the Static Tables (41_key_schedule.md rules R101, R107). -/
theorem plainSchedule_eq (key : Memory) (n : Nat) :
    plainSchedule key n = plainExpand (keyXorPass key n { P := pInit, S := sInit }) := rfl

/-- The salted schedule from the Static Tables (rules R101, R107). -/
theorem saltedSchedule_eq (key : Memory) (n : Nat) (salt : Memory) (m : Nat) :
    saltedSchedule key n salt m = saltedExpand salt m (keyXorPass key n { P := pInit, S := sInit }) := rfl

/-- One turn of KeyXorPass (rule R102) leaves `S` alone, changes only entry `i` of `P`, and moves the cursor by 4. -/
theorem keyXorStep_S (key : Memory) (n : Nat) (x : Tables × Nat) (i : Fin 18) :
    (keyXorStep key n x i).1.S = x.1.S := rfl

theorem keyXorStep_P (key : Memory) (n : Nat) (x : Tables × Nat) (i : Fin 18) (k : Nat) (hk : k < 18) :
    (keyXorStep key n x i).1.P[k] = if i.val = k then x.1.P[i] ^^^ (nextWord key n x.2).1 else x.1.P[k] := by
  simp only [keyXorStep, Vector.getElem_set, Fin.getElem_fin]

theorem keyXorStep_cursor (key : Memory) (n : Nat) (x : Tables × Nat) (i : Fin 18) :
    (keyXorStep key n x i).2 = (x.2 + 4) % n := by rw [keyXorStep, nextWord_eq]

end Sys2Proof.Machine
end

