-- ==== Sys2Proof/Machine/Scripts.lean ====
section
/-! DEFINITION. The textual notation of 30_encoding.md rule R64 as runs of the machine: a script line is carried out by the
host on an idle core, the RNG giving the line's answer during the line's command, and its result is read off the state. -/

namespace Sys2Proof.Machine

/-! ## What a line makes the host and the RNG do -/

/-- An operand write of rule R64: "the host writes the bytes to `KEY` and their count to `KEYLEN`". -/
def operandMoves (b : Buf) (r : LenReg) (bytes : List Byte) : List HostMove :=
  [.writeBuf b 0 bytes, .writeLen r bytes.length]

/-- The operand writes of ENCB and DECB: "`dstlen=<n>` writes `DSTLEN` and defaults to 8 when omitted" (rule R64). -/
def blockOperandMoves (src : List Byte) (dstlen : Option Nat) : List HostMove :=
  operandMoves .src .srclen src ++ [.writeLen .dstlen (dstlen.getD Config.blockBytes)]

/-- The operand writes of a script line (rule R64). -/
def scriptOperands : Script → List HostMove
  | .newc key => operandMoves .key .keylen key
  | .newsc key salt => operandMoves .key .keylen key ++ operandMoves .salt .saltlen salt
  | .blksz => []
  | .encb src dstlen => blockOperandMoves src dstlen
  | .decb src dstlen => blockOperandMoves src dstlen
  | .enccbc src _ _ => operandMoves .src .srclen src
  | .deccbc src => operandMoves .src .srclen src

/-- The host's moves for a script line: the operand writes, "Then the host writes the code to `CMD`" (rule R64), and
the wait for completion that 70_reset_and_hazards.md rule R213 asks of the host. -/
def scriptMoves (l : Script) : List HostMove := scriptOperands l ++ [.writeCmd (encode l.instr), .await]

/-- The RNG's answer for bytes delivered and a failure report (43_cbc.md rule R150). -/
def rngAnswer (bytes : List Byte) (fail : Bool) : RngAnswer where
  bytes := blockAt bytes 0
  n := ⟨min bytes.length 8, by omega⟩
  fail := fail

/-- "the answer the RNG gives during the command" (rule R64): one for ENCCBC, none for any other (60_exceptions.md rule
R186). -/
def scriptRng : Script → List RngAnswer
  | .newc _ => []
  | .newsc _ _ => []
  | .blksz => []
  | .encb _ _ => []
  | .decb _ _ => []
  | .enccbc _ bytes fail => [rngAnswer bytes fail]
  | .deccbc _ => []

/-! ## Running lines -/

/-- `n` steps, as far as they go on. -/
def runSteps : Nat → State → Host.Outcome State Fault Refusal
  | 0, s => .next s
  | n + 1, s =>
    match step s with
    | .next t => runSteps n t
    | .fault f => .fault f
    | .refused r => .refused r

/-- The state in which a line is about to be carried out: the host's moves and the RNG's answer of the line, alone. -/
def loadLine (l : Script) (s : State) : State := { s with host := scriptMoves l, rng := scriptRng l }

/-- One line, from an idle core: one step for each move and one for the command. The inputs that were pending before it
are pending after it, and an answer of the line that its command did not ask for is gone with the line (log entry 23). -/
def runLine (l : Script) (s : State) : Host.Outcome State Fault Refusal :=
  match runSteps ((scriptMoves l).length + 1) (loadLine l s) with
  | .next t => .next { t with host := s.host, rng := s.rng }
  | .fault f => .fault f
  | .refused r => .refused r

/-- Script lines one after another: "A run is the host's finite list of commands" (70_reset_and_hazards.md rule R214). -/
def runScript : List Script → State → Host.Outcome State Fault Refusal
  | [], s => .next s
  | l :: ls, s =>
    match runLine l s with
    | .next t => runScript ls t
    | .fault f => .fault f
    | .refused r => .refused r

/-! ## The result of a line -/

/-- A result as rule R64 writes it: `-> STATUS=<name> [ERRINFO=<n>] [dst=<bytes>] [RESULT=<n>]`, the parts in brackets
written where they are wanted. -/
structure LineResult where
  status : Option String
  errinfo : Nat
  dst : List Byte
  result : Word
  deriving DecidableEq, Repr

/-- The result that the host reads after a line: `dst` is `DST[0..OUTLEN-1]`. -/
def State.lineResult (s : State) : LineResult where
  status := statusName s.status
  errinfo := s.errinfo
  dst := s.memRead .dst 0 s.outlen
  result := s.result

end Sys2Proof.Machine
end

