-- ==== Sys2Proof/Laws/Scripts.lean ====
section
/-! SUPPORT. What running a script line does: it always completes, and leaves the core idle with the inputs that were
pending before it. -/

namespace Sys2Proof.Machine

theorem runSteps_succ {s t : State} (h : step s = .next t) (n : Nat) : runSteps (n + 1) s = runSteps n t := by
  simp [runSteps, h]

/-- The host's moves that write an operand. -/
def HostMove.isOperand : HostMove → Bool
  | .writeBuf _ _ _ => true
  | .writeLen _ _ => true
  | .writeReadOnly _ _ => false
  | .writeCmd _ => false
  | .readReg _ => false
  | .readDst _ => false
  | .await => false
  | .reset => false

/-- An operand write leaves the inputs and the idle core alone. -/
theorem applyMove_operand {m : HostMove} (h : m.isOperand = true) (s : State) :
    (applyMove m s).cmd = s.cmd ∧ (applyMove m s).host = s.host ∧ (applyMove m s).rng = s.rng := by
  cases m <;> simp [HostMove.isOperand] at h <;> simp [applyMove]

/-- Operand writes on an idle core take one step each. -/
theorem runSteps_operands {ms rest : List HostMove} (h : ∀ m ∈ ms, m.isOperand = true) {s : State} (hc : s.cmd = none)
    (hm : s.host = ms ++ rest) :
    ∃ t, (∀ n, runSteps (ms.length + n) s = runSteps n t) ∧ t.cmd = none ∧ t.host = rest ∧ t.rng = s.rng := by
  induction ms generalizing s with
  | nil => exact ⟨s, fun n => by simp, hc, hm, rfl⟩
  | cons m ms ih =>
    obtain ⟨h1, h2, h3⟩ := applyMove_operand (h m (by simp)) { s with host := ms ++ rest }
    obtain ⟨t, ht, hr⟩ := ih (fun m hm => h m (by simp [hm])) (h1.trans hc) h2
    refine ⟨t, fun n => ?_, hr.1, hr.2.1, hr.2.2.trans h3⟩
    rw [List.length_cons, Nat.add_right_comm, runSteps_succ (step_idle hc (hm.trans (List.cons_append ..))), ht n]

theorem scriptOperands_isOperand (l : Script) : ∀ m ∈ scriptOperands l, m.isOperand = true := by
  cases l <;> simp [scriptOperands, blockOperandMoves, operandMoves, HostMove.isOperand]

/-- A command ends, ENCCBC if the RNG answers, and leaves the host's moves alone. -/
theorem exec_ends {i : Instr} {s : State} (h : i = .enccbc → s.rng ≠ []) :
    ∃ t, exec i s = .next t ∧ t.cmd = none ∧ t.host = s.host := by
  rw [exec_eq_inFrame]
  unfold inFrame
  split
  · exact ⟨_, rfl, rfl, rfl⟩
  · split
    · exact ⟨_, rfl, rfl, rfl⟩
    · refine ⟨_, rfl, ?_, (commandBody_keeps i s).1⟩
      rcases commandBody_cases i s with ⟨_, _, e⟩ | ⟨_, _, _, _, e⟩ | ⟨_, _, _, e⟩ | ⟨_, e⟩ | ⟨_, _, _, e⟩ | ⟨hi, hr, _⟩ |
        ⟨_, _, _, e⟩ | ⟨_, _, _, _, _, e⟩
      case inr.inr.inr.inr.inr.inl => exact absurd hr (h hi)
      all_goals rw [e]; rfl

/-- A line run on an idle core completes, leaves the core idle, and leaves the inputs pending before it as they were. -/
theorem runLine_completes (l : Script) {s : State} (hc : s.cmd = none) :
    ∃ t, runLine l s = .next t ∧ t.cmd = none ∧ t.host = s.host ∧ t.rng = s.rng := by
  obtain ⟨a, ha, ac, ah, ar⟩ := runSteps_operands (rest := [.writeCmd (encode l.instr), .await]) (s := loadLine l s)
    (scriptOperands_isOperand l) hc rfl
  obtain ⟨b, hb, bc, bh⟩ := exec_ends (i := l.instr) (s := { a with cmd := some (encode l.instr), host := [.await] })
    (fun hi => by rw [ar]; cases l <;> simp [Script.instr] at hi; simp [loadLine, scriptRng])
  have hx : step { a with cmd := some (encode l.instr), host := [.await] } = .next b := by
    have hd : decode (encode l.instr) = .command l.instr := by cases l <;> rfl
    rw [step_executing rfl rfl, runCode]; simp only [hd, hb]
  have he : runSteps ((scriptMoves l).length + 1) (loadLine l s) = .next { b with host := [] } := by
    rw [scriptMoves, List.length_append, Nat.add_assoc, ha]
    simp only [List.length_cons, List.length_nil]
    rw [runSteps_succ (step_idle ac ah), applyMove, runSteps_succ hx, runSteps_succ (step_idle bc bh)]
    rfl
  refine ⟨{ b with host := s.host, rng := s.rng }, by rw [runLine, he], bc, rfl, rfl⟩

/-- So does a script. -/
theorem runScript_completes (ls : List Script) {s : State} (hc : s.cmd = none) :
    ∃ t, runScript ls s = .next t ∧ t.cmd = none ∧ t.host = s.host ∧ t.rng = s.rng := by
  induction ls generalizing s with
  | nil => exact ⟨s, rfl, hc, rfl, rfl⟩
  | cons l ls ih =>
    obtain ⟨t, h, h1, h2, h3⟩ := runLine_completes l hc
    obtain ⟨u, g, g1, g2, g3⟩ := ih h1
    exact ⟨u, by rw [runScript, h]; exact g, g1, g2.trans h2, g3.trans h3⟩

end Sys2Proof.Machine
end

