-- ==== Sys2Proof/Tests/Slice0.lean ====
section
/-! SUPPORT. The model's own tests: expected values from 95_test_vectors.md and 11_static_tables.md, or worked out by
hand from the rules where a comment says so; and one witness for the hypotheses of each statement. -/

open Sys2Proof Sys2Proof.Machine Sys2Proof.Safety Sys2Proof.Claims

namespace Sys2Proof.Tests

/- The kernel evaluations of this file one after another: together they would need too much memory. -/
set_option Elab.async false

/-! ## Helpers -/

/-- What holds of the state an outcome goes on to. -/
def after (o : Host.Outcome State Fault Refusal) (p : State → Bool) : Bool :=
  match o with
  | .next t => p t
  | .fault _ => false
  | .refused _ => false

/-- The bytes of a hexadecimal numeral of `n` digits pairs, as the spec writes byte strings. -/
def hex (n v : Nat) : List Byte := (List.range n).map fun i => BitVec.ofNat 8 (v / 256 ^ (n - 1 - i))

/-- A buffer holding bytes from index 0 on. -/
def holding (bytes : List Byte) : Memory := memWriteAt id [] 0 bytes

/-- The key `K8` of 95_test_vectors.md. -/
def k8 : Memory := holding (hex 8 0x0001020304050607)

/-- `P` and `S` of `K8` after LoadTables and KeyXorPass, before any expansion (95_test_vectors.md section 4.2). -/
def tabK8 : Tables := keyXorPass k8 8 loadTables

/-- A state in which a command of code `c` is executing, with the given tables and source bytes, both block lengths set
to the number of bytes, and every register the command should overwrite holding something else. -/
def running (c : Byte) (t : Tables) (src : List Byte) : State :=
  { State.reset with
    cmd := some c, tab := t, fsm := .keyed, status := 0x05, errinfo := 9, outlen := 3,
    srclen := src.length, dstlen := src.length }.memWrite .src 0 src

/-- The RNG has one answer: these bytes, all delivered. -/
def answering (bytes : Block) (s : State) : State := { s with rng := [⟨bytes, 8, false⟩] }

/-- The first `n` bytes of `DST`. -/
def dstBytes (s : State) (n : Nat) : List Byte := s.memRead .dst 0 n

/-! ## Well-formedness and decoding -/

/-- The RNG delivers at most 8 bytes (43_cbc.md rule R150): nine are refused, eight are not. -/
theorem test_wellFormed_rng_bytes :
    (Script.enccbc [] (List.replicate 9 0) false).wellFormed = false ∧
      (Script.enccbc [] (List.replicate 8 0) false).wellFormed = true := by decide

/-- Codes as the opcode table of 30_encoding.md rule R61 writes them. -/
theorem test_decode_newc : decode 0b00000001 = .command .newc ∧ decodeTableWord 8 0b00000001 = some .newc := by decide
theorem test_decode_newsc : decode 0b00000010 = .command .newsc ∧ decodeTableWord 8 0b00000010 = some .newsc := by decide
theorem test_decode_blksz : decode 0b00000011 = .command .blksz ∧ decodeTableWord 8 0b00000011 = some .blksz := by decide
theorem test_decode_encb : decode 0b00000100 = .command .encb ∧ decodeTableWord 8 0b00000100 = some .encb := by decide
theorem test_decode_decb : decode 0b00000101 = .command .decb ∧ decodeTableWord 8 0b00000101 = some .decb := by decide
theorem test_decode_enccbc : decode 0b00000110 = .command .enccbc ∧ decodeTableWord 8 0b00000110 = some .enccbc := by
  decide
theorem test_decode_deccbc : decode 0b00000111 = .command .deccbc ∧ decodeTableWord 8 0b00000111 = some .deccbc := by
  decide

/-- Rule R63: the codes next to the seven select no command. -/
theorem test_decode_reserved :
    decode 0x00 = .reserved 0x00 ∧ decode 0x08 = .reserved 0x08 ∧ decode 0xFF = .reserved 0xFF ∧
      decodeTableWord 8 0x86 = none := by decide

/-! ## Static Tables (11_static_tables.md rule R34) -/

/-- The checksum pair of rule R34: XOR and sum modulo 2^32. -/
def checksum (ws : List Word) : Word × Word := (ws.foldl (· ^^^ ·) 0, ws.foldl (· + ·) 0)

theorem test_checksum_pInit : checksum pInit.toList = (0xB73AD7EA, 0x8E4D14CC) := by decide +kernel
theorem test_checksum_sInit0 : checksum sInit[0].toList = (0x4EB4DB7F, 0x4B745115) := by decide +kernel
theorem test_checksum_sInit1 : checksum sInit[1].toList = (0xC727E122, 0x72FF37B2) := by decide +kernel
theorem test_checksum_sInit2 : checksum sInit[2].toList = (0x462A5D01, 0x2AC02B91) := by decide +kernel
theorem test_checksum_sInit3 : checksum sInit[3].toList = (0x1779E2BC, 0xF43E3A88) := by decide +kernel

/-! ## Operands and the transforms -/

/-- 95_test_vectors.md section 3.1, all five rows. -/
theorem test_F_seed_tables :
    F loadTables 0x00000000 = 0x2FCFF51E ∧ F loadTables 0xFFFFFFFF = 0x452C2867 ∧
      F loadTables 0x01234567 = 0xF36E574C ∧ F loadTables 0x80000001 = 0xB75E1054 ∧
      F loadTables 0x000C0000 = 0x3D94225A := by decide +kernel

/-- 95_test_vectors.md section 4.1, the 5-byte key: words 0, 1 and 4 of the pass. -/
theorem test_nextWord_wraps :
    nextWord (holding (hex 5 0x0102030405)) 5 0 = (0x01020304, 4) ∧
      nextWord (holding (hex 5 0x0102030405)) 5 4 = (0x05010203, 3) ∧
      nextWord (holding (hex 5 0x0102030405)) 5 1 = (0x02030405, 0) := by decide +kernel

/-- 95_test_vectors.md section 4.2, `P` after KeyXorPass with `K8`. -/
theorem test_keyXorPass_k8 :
    tabK8.P[0] = 0x243E688B ∧ tabK8.P[1] = 0x81A60ED4 ∧ tabK8.P[16] = 0x9217D7DA ∧ tabK8.P[17] = 0x8D7CFD1C := by
  decide +kernel

/-- 95_test_vectors.md section 4.2, the first encryption of the expansion, and back. -/
theorem test_encryptWords_first : encryptWords tabK8 (0, 0) = (0x7FF171C3, 0x19A5D8BF) := by decide +kernel
theorem test_decryptWords_first : decryptWords tabK8 (0x7FF171C3, 0x19A5D8BF) = (0, 0) := by decide +kernel

/-- 95_test_vectors.md section 4.2: the second encryption of the plain schedule with `K8` runs under the `P` that the
first one changed. -/
theorem test_plainSchedule_k8 : (plainSchedule k8 8).P[2] = 0x172DF4BF := by decide +kernel

/-- 95_test_vectors.md section 5.1: the second step of the salted schedule with `K8` and `S16`. -/
theorem test_saltedSchedule_k8 :
    (saltedSchedule k8 8 (holding (hex 16 0x000102030405060708090A0B0C0D0E0F)) 16).P[2] = 0x1AAB747F := by
  decide +kernel

/-- 43_cbc.md rules R141, R142; 95_test_vectors.md section 6.1, vectors a, b and c. -/
theorem test_padding :
    buildBuf #v[1, 2, 3, 4, 5, 6, 7, 8] (hex 5 0x68656C6C6F) = hex 16 0x010203040506070868656C6C6FA3A3A3 ∧
      buildBuf #v[1, 2, 3, 4, 5, 6, 7, 8] [] = hex 16 0x0102030405060708C4C4C4C4C4C4C4C4 ∧
      buildBuf #v[1, 2, 3, 4, 5, 6, 7, 8] (hex 8 0x0001020304050607) =
        hex 24 0x01020304050607080001020304050607CBCBCBCBCBCBCBCB := by decide +kernel

/-- 43_cbc.md rule R144; the data of 95_test_vectors.md sections 6.1 (g) and 6.3: a run that stops at an earlier byte,
one across the block boundary, and one that the bound at offset 8 ends. -/
theorem test_unpad :
    unpad (hex 16 0x010203040506070833FFFF3333333333) 16 = 11 ∧
      unpad (hex 24 0x010203040506070811223355555555555555555555555555) 24 = 11 ∧
      unpad (hex 24 0x555555555555555555555555555555555555555555555555) 24 = 8 := by decide +kernel

/-! ## One step of each command -/

/-- 95_test_vectors.md section 7: 57 bytes are too many and 0 too few. -/
theorem test_newc_key_size :
    after (step { running 0x01 Tables.zero [] with keylen := 57 })
      (fun t => t.status == 0x01 && t.errinfo == 57 && t.outlen == 0 && t.fsm == .keyed && t.cmd == none) = true ∧
    after (step { running 0x01 Tables.zero [] with keylen := 0 }) (fun t => t.status == 0x01 && t.errinfo == 0) = true := by
  decide +kernel

/-- 95_test_vectors.md section 8, program 1 line 2, with the first subkey of section 4.2. -/
theorem test_newc_k8 :
    after (step { running 0x01 Tables.zero [] with fsm := .unkeyed, key := k8, keylen := 8 })
      (fun t => t.status == 0x00 && t.errinfo == 0 && t.outlen == 0 && t.fsm == .keyed && t.tab.P[0] == 0x7FF171C3) =
      true := by decide +kernel

/-- 95_test_vectors.md section 5.2: an empty salt with 57 key bytes, and no key with a salt. -/
theorem test_newsc_key_size :
    after (step { running 0x02 Tables.zero [] with keylen := 57 }) (fun t => t.status == 0x01 && t.errinfo == 57) = true ∧
    after (step { running 0x02 Tables.zero [] with saltlen := 1 }) (fun t => t.status == 0x01 && t.errinfo == 0) = true := by
  decide +kernel

/-- 95_test_vectors.md section 5.2, `NEWSC key=K8 salt=AABBCC`. -/
theorem test_newsc_short_salt :
    after (step { running 0x02 Tables.zero [] with key := k8, keylen := 8, salt := holding (hex 3 0xAABBCC), saltlen := 3 })
      (fun t => t.status == 0x00 && t.tab.P[0] == 0x600DA777 && t.tab.P[1] == 0x2BD78A14) =
      true := by decide +kernel

/-- 95_test_vectors.md section 8, program 1 line 1: BLKSZ needs no key. -/
theorem test_blksz :
    after (step { running 0x03 Tables.zero [] with fsm := .unkeyed })
      (fun t => t.status == 0x00 && t.errinfo == 0 && t.outlen == 0 && t.result == 8 && t.fsm == .unkeyed) = true := by
  decide +kernel

/-- The first encryption of 95_test_vectors.md section 4.2, as a command. -/
theorem test_encb :
    after (step (running 0x04 tabK8 (hex 8 0)))
      (fun t => t.status == 0x00 && t.errinfo == 0 && t.outlen == 8 && dstBytes t 8 == hex 8 0x7FF171C319A5D8BF) = true := by
  decide +kernel

/-- 95_test_vectors.md section 7: SRCLEN 7 is fatal. -/
theorem test_encb_short :
    after (step (running 0x04 tabK8 (hex 7 0)))
      (fun t => t.status == 0x81 && t.errinfo == 7 && t.outlen == 0 && t.fsm == .faulted) = true := by decide +kernel

/-- The same encryption undone, in place: `SRC` and `DST` are one buffer (20_memory.md rule R45). -/
theorem test_decb_in_place :
    after (step ({ running 0x05 tabK8 (hex 8 0) with wiring := .shared 4 4 }.memWrite .src 0 (hex 8 0x7FF171C319A5D8BF)))
      (fun t => t.status == 0x00 && t.outlen == 8 && dstBytes t 8 == hex 8 0) = true := by decide +kernel

/-- 95_test_vectors.md section 7: with both lengths wrong SRCLEN is reported. -/
theorem test_decb_lengths :
    after (step { running 0x05 tabK8 (hex 9 0) with dstlen := 7 })
      (fun t => t.status == 0x81 && t.errinfo == 9 && t.fsm == .faulted) = true := by decide +kernel

/-- By hand from 43_cbc.md rules R141, R155 and the first encryption of section 4.2: the padded data `010203046FA3A3A3`
XOR an equal IV is the zero block. And by hand with zero tables, where F is 0 and EncryptBlock swaps the two words: the
second block is chained with the first ciphertext block. -/
theorem test_enccbc :
    after (step (answering #v[0x01, 0x02, 0x03, 0x04, 0x6F, 0xA3, 0xA3, 0xA3] (running 0x06 tabK8 (hex 5 0x010203046F))))
      (fun t => t.status == 0x00 && t.outlen == 16 && t.rng == [] && t.iv.toList == hex 8 0x010203046FA3A3A3 &&
        dstBytes t 16 == hex 16 0x010203046FA3A3A37FF171C319A5D8BF) = true ∧
    after (step (answering #v[0, 0, 0, 0, 0, 0, 0, 0] (running 0x06 Tables.zero (hex 8 0x0001020304050607))))
      (fun t => t.outlen == 24 && dstBytes t 24 == hex 24 0x00000000000000000405060700010203CBCAC9C8CFCECDCC) = true := by
  decide +kernel

/-- The first result of `test_enccbc` decrypted. -/
theorem test_deccbc_five_bytes :
    after (step (running 0x07 tabK8 (hex 16 0x010203046FA3A3A37FF171C319A5D8BF)))
      (fun t => t.status == 0x00 && t.outlen == 5 && t.iv.toList == hex 8 0x010203046FA3A3A3 &&
        dstBytes t 6 == hex 6 0x010203046F00) = true := by decide +kernel

/-- 95_test_vectors.md section 7: SRCLEN 8 is malformed, IV unchanged. -/
theorem test_deccbc_malformed :
    after (step (running 0x07 tabK8 (hex 8 0xFFFFFFFFFFFFFFFF)))
      (fun t => t.status == 0x02 && t.errinfo == 8 && t.outlen == 0 && t.fsm == .keyed && t.iv.toList == hex 8 0) = true := by
  decide +kernel

/-- 95_test_vectors.md section 7: a short read without a reported failure, and a reported failure with 8 bytes. -/
theorem test_enccbc_rng_failure :
    after (step { running 0x06 tabK8 [] with rng := [⟨#v[1, 2, 3, 0, 0, 0, 0, 0], 3, false⟩] })
      (fun t => t.status == 0x03 && t.errinfo == 3 && t.outlen == 0 && t.rng == []) = true ∧
    after (step { running 0x06 tabK8 [] with rng := [⟨#v[1, 2, 3, 4, 5, 6, 7, 8], 8, true⟩] })
      (fun t => t.status == 0x03 && t.errinfo == 8 && t.iv.toList == hex 8 0) = true := by decide +kernel

/-- 95_test_vectors.md section 7: code 0x2A, outside `Faulted` and in it. -/
theorem test_reserved_code :
    after (step (running 0x2A Tables.zero [])) (fun t => t.status == 0x05 && t.errinfo == 42 && t.fsm == .keyed) = true ∧
    after (step { running 0x2A Tables.zero [] with fsm := .faulted, status := 0x81, errinfo := 7 })
      (fun t => t.status == 0x81 && t.errinfo == 7 && t.fsm == .faulted) = true := by decide +kernel

/-- 30_encoding.md rule R64: the host's moves for one line of a program. -/
theorem test_script_line :
    scriptMoves (.encb [1, 2] (some 9)) =
      [.writeBuf .src 0 [1, 2], .writeLen .srclen 2, .writeLen .dstlen 9, .writeCmd 0x04, .await] ∧
    scriptMoves (.decb [1, 2] none) =
      [.writeBuf .src 0 [1, 2], .writeLen .srclen 2, .writeLen .dstlen 8, .writeCmd 0x05, .await] := by decide

/-- 95_test_vectors.md section 7, ENCCBC in `Unkeyed`: NOT_KEYED, the RNG is not asked, and the answer of the line does not
outlive it (rule R64). -/
theorem test_script_rng_of_its_line :
    after (runLine (.enccbc (hex 5 0x68656C6C6F) (hex 8 0x0102030405060708) false) State.reset)
      (fun t => t.lineResult == ⟨some "NOT_KEYED", 0, [], 0⟩ && t.rng == [] && t.cmd == none) = true := by decide +kernel

/-- 10_state.md rule R16: the numbers of the registers 1, 3 and 9. -/
theorem test_register_numbers :
    (HostReg.ro .status).number = 1 ∧ (HostReg.len .keylen).number = 3 ∧ (HostReg.ro .result).number = 9 := by decide

/-- 70_reset_and_hazards.md rule R214: BLKSZ issued has ended well once it has completed, with or without the
host's wait for it. -/
theorem test_endedWell :
    endedWell 2 { State.reset with host := [.writeCmd 0x03] } = true ∧
      endedWell 3 { State.reset with host := [.writeCmd 0x03, .await] } = true ∧
      endedWell 1 { State.reset with host := [.writeCmd 0x03] } = false := by decide +kernel

/-- Rule R214: a reset that abandons BLKSZ, one that leaves `Faulted`, and ENCCBC waiting for ever, have not. -/
theorem test_not_endedWell :
    endedWell 2 { State.reset with host := [.writeCmd 0x03, .reset] } = false ∧
      endedWell 1 { State.reset with fsm := .faulted, host := [.reset] } = false ∧
      endedWell 1 (running 0x06 Tables.zero []) = false ∧ goodRun 1 (running 0x06 Tables.zero []) = false := by
  decide +kernel

/-! ## Witnesses

One named theorem per statement of Certificates/Slice0/Obligations.lean that has hypotheses: concrete data that meet
them all, clause by clause. -/

/-- An idle `Keyed` core with zero tables whose host makes the given moves. -/
def idle (host : List HostMove) : State := { State.reset with fsm := .keyed, host := host }

theorem witness_DecodeInvertsEncode :
    Instr.deccbc.wellFormed = true ∧ decode 0x07 = .command .deccbc ∧ decode 0x01 = .command .newc := by decide

theorem witness_ReservedCodeRaisesIllegalCommand :
    (running 0x00 Tables.zero []).cmd = some 0x00 ∧ (running 0x08 Tables.zero []).cmd = some 0x08 ∧
      noReset (running 0x00 Tables.zero []) ∧ (running 0x00 Tables.zero []).fsm ≠ .faulted ∧
      noReset (running 0x08 Tables.zero []) ∧ (running 0x08 Tables.zero []).fsm ≠ .faulted ∧
      8 ≤ (0x08 : Byte).toNat := ⟨rfl, rfl, nofun, nofun, nofun, nofun, by decide⟩

theorem witness_StepExecutesTheDecodedCommand :
    (running 0x03 Tables.zero []).cmd = some 0x03 ∧ noReset (running 0x03 Tables.zero []) ∧
      decode 0x03 = .command .blksz := ⟨rfl, nofun, by decide⟩

theorem witness_PlacedTableWordRunsNext : decodeTableWord 8 0x06 = some .enccbc := by decide

theorem witness_WriteOfCmdStartsTheCommand :
    (idle [.writeCmd 0xFF, .await]).cmd = none ∧ (idle [.writeCmd 0xFF, .await]).host = .writeCmd 0xFF :: [.await] := ⟨rfl, rfl⟩

theorem witness_ExecutingCommandHoldsTheHostBack :
    ∃ t, (running 0x03 Tables.zero []).cmd = some 0x03 ∧ noReset (running 0x03 Tables.zero []) ∧
      step (running 0x03 Tables.zero []) = .next t := ⟨_, rfl, nofun, rfl⟩

theorem witness_HostWritesLengthRegisters :
    (idle [.writeLen .keylen 0]).cmd = none ∧ (idle [.writeLen .keylen 0]).host = .writeLen .keylen 0 :: [] ∧
      (idle [.writeLen .saltlen 1]).host = .writeLen .saltlen 1 :: [] ∧
      (idle [.writeLen .srclen 1000]).host = .writeLen .srclen 1000 :: [] ∧
      (idle [.writeLen .dstlen 9]).host = .writeLen .dstlen 9 :: [] := ⟨rfl, rfl, rfl, rfl, rfl⟩

theorem witness_ReadOnlyRegistersIgnoreWrites :
    (idle [.writeReadOnly .result 7]).cmd = none ∧
      (idle [.writeReadOnly .result 7]).host = .writeReadOnly .result 7 :: [] := ⟨rfl, rfl⟩

theorem witness_HostReadsHaveNoSideEffect :
    ∀ r : HostReg, (idle [.readReg r]).cmd = none ∧ (idle [.readReg r]).host = .readReg r :: [] ∧
      (idle [.readDst 0]).host = .readDst 0 :: [] := fun _ => ⟨rfl, rfl, rfl⟩

theorem witness_HostBufferWriteStoresItsBytes :
    ∀ b : Buf, (idle [.writeBuf b 3 [0, 1]]).cmd = none ∧ storagesWf (idle [.writeBuf b 3 [0, 1]]) = true ∧
      (idle [.writeBuf b 3 [0, 1]]).host = .writeBuf b 3 [0, 1] :: [] ∧
      (idle [.writeBuf b 3 [0, 1]]).wiring = .distinct := fun _ => ⟨rfl, rfl, rfl, rfl⟩

/-- The same core with `SRC` and `DST` in one storage: `DST` from place 0 on, `SRC` from place 4 on. -/
def overlapping (host : List HostMove) : State := { idle host with wiring := .shared 4 0 }

/-- Shared wiring. Place 0, a byte of `DST` below the base of `SRC`, is none of the places 7 and 8 that the write to `SRC`
at 3 and 4 goes to; place 9, a byte of `SRC`, is none of the places 3 and 4 of the same write to `DST`. -/
theorem witness_HostBufferWriteStoresItsBytes_shared :
    ∀ b : Buf, (overlapping [.writeBuf b 3 [0, 1]]).cmd = none ∧
      storagesWf (overlapping [.writeBuf b 3 [0, 1]]) = true ∧
      (overlapping [.writeBuf b 3 [0, 1]]).host = .writeBuf b 3 [0, 1] :: [] ∧
      (∀ i < 2, 0 ≠ (overlapping [.writeBuf b 3 [0, 1]]).bufAddr .src (3 + i)) ∧
      ∀ i < 2, 9 ≠ (overlapping [.writeBuf b 3 [0, 1]]).bufAddr .dst (3 + i) := by
  intro b; cases b <;> decide

theorem witness_ResetGivesTheResetValues :
    (idle [.reset]).host = .reset :: [] ∧ (idle [.reset]).cmd = none ∧ (idle [.reset]).data.wf = true ∧
      (∀ i, (0 : Nat) ≠ (idle [.reset]).wiring.dstAddr i) ∧
      { running 0x06 Tables.zero [] with host := [.reset] }.host = .reset :: [] ∧
      { running 0x06 Tables.zero [] with host := [.reset] }.cmd = some 0x06 :=
  ⟨rfl, rfl, rfl, fun i => by simp [idle, State.reset, Wiring.dstAddr], rfl, rfl⟩

/-- The word pairs of EncryptWords, by recursion on the round number. -/
def encSeq (t : Tables) (w : Word × Word) : Nat → Word × Word
  | 0 => (w.1 ^^^ t.P[0], w.2)
  | n + 1 =>
    if h : n + 1 ≤ 16 then
      if (n + 1) % 2 = 1 then ((encSeq t w n).1, (encSeq t w n).2 ^^^ F t (encSeq t w n).1 ^^^ t.P[n + 1])
      else ((encSeq t w n).1 ^^^ F t (encSeq t w n).2 ^^^ t.P[n + 1], (encSeq t w n).2)
    else (0, 0)

theorem witness_EncryptWordsRunsSixteenRounds :
    encSeq loadTables (1, 2) 0 = (1 ^^^ loadTables.P[0], 2) ∧
      ∀ n, (h : 1 ≤ n ∧ n ≤ 16) →
        encSeq loadTables (1, 2) n =
          if n % 2 = 1 then ((encSeq loadTables (1, 2) (n - 1)).1,
            (encSeq loadTables (1, 2) (n - 1)).2 ^^^ F loadTables (encSeq loadTables (1, 2) (n - 1)).1 ^^^ loadTables.P[n])
          else ((encSeq loadTables (1, 2) (n - 1)).1 ^^^ F loadTables (encSeq loadTables (1, 2) (n - 1)).2 ^^^
            loadTables.P[n], (encSeq loadTables (1, 2) (n - 1)).2) := by
  refine ⟨rfl, fun n h => ?_⟩
  obtain ⟨m, rfl⟩ : ∃ m, n = m + 1 := ⟨n - 1, by omega⟩
  rw [encSeq, dif_pos h.2]; rfl

/-- The word pairs of DecryptWords, by recursion. -/
def decSeq (t : Tables) (w : Word × Word) : Nat → Word × Word
  | 0 => (w.1 ^^^ t.P[17], w.2)
  | n + 1 =>
    if (17 - (n + 1)) % 2 = 0 then
      ((decSeq t w n).1, (decSeq t w n).2 ^^^ F t (decSeq t w n).1 ^^^ t.P[17 - (n + 1)])
    else ((decSeq t w n).1 ^^^ F t (decSeq t w n).2 ^^^ t.P[17 - (n + 1)], (decSeq t w n).2)

theorem witness_DecryptWordsRunsTheRoundsBackward :
    decSeq loadTables (1, 2) 0 = (1 ^^^ loadTables.P[17], 2) ∧
      ∀ k, (h : 1 ≤ k ∧ k ≤ 16) →
        decSeq loadTables (1, 2) k =
          if (17 - k) % 2 = 0 then ((decSeq loadTables (1, 2) (k - 1)).1,
            (decSeq loadTables (1, 2) (k - 1)).2 ^^^ F loadTables (decSeq loadTables (1, 2) (k - 1)).1 ^^^
              loadTables.P[17 - k])
          else ((decSeq loadTables (1, 2) (k - 1)).1 ^^^ F loadTables (decSeq loadTables (1, 2) (k - 1)).2 ^^^
            loadTables.P[17 - k], (decSeq loadTables (1, 2) (k - 1)).2) := by
  refine ⟨rfl, fun n h => ?_⟩
  obtain ⟨m, rfl⟩ : ∃ m, n = m + 1 := ⟨n - 1, by omega⟩
  rw [decSeq]; rfl

theorem witness_BlockTransformsAreBigEndian :
    let b : Block := #v[0x01, 0x23, 0x45, 0x67, 0x89, 0xAB, 0xCD, 0xEF]
    (0x01234567 : Word).toNat = b[0].toNat * 2 ^ 24 + b[1].toNat * 2 ^ 16 + b[2].toNat * 2 ^ 8 + b[3].toNat ∧
      (0x89ABCDEF : Word).toNat = b[4].toNat * 2 ^ 24 + b[5].toNat * 2 ^ 16 + b[6].toNat * 2 ^ 8 + b[7].toNat := by
  decide

theorem witness_NextWordReadsCircularly : 1 ≤ 5 ∧ 4 < 5 := by decide

theorem witness_KeyXorPassFoldsTheKeyWords : 1 ≤ 1 ∧ 17 < 18 := by decide

/-- The chain of an expansion with the input words `mix m` XORed in: the tables and the in-flight block. -/
def chain (mix : Nat → Word × Word) (t : Tables) : Nat → Tables × (Word × Word)
  | 0 => (t, (0, 0))
  | m + 1 =>
    let x := chain mix t m
    let w := encryptWords x.1 (x.2.1 ^^^ (mix m).1, x.2.2 ^^^ (mix m).2)
    (storePair m w x.1, w)

theorem witness_PlainExpandChainsItsEncryptions :
    ∃ (st : Nat → Tables) (w : Nat → Word × Word), st 0 = loadTables ∧ w 0 = (0, 0) ∧
      ∀ m < 521, w (m + 1) = encryptWords (st m) (w m) ∧ st (m + 1) = storePair m (w (m + 1)) (st m) :=
  ⟨fun m => (chain (fun _ => (0, 0)) loadTables m).1, fun m => (chain (fun _ => (0, 0)) loadTables m).2, rfl, rfl,
    fun m _ => ⟨by simp [chain], by simp [chain]⟩⟩

theorem witness_SaltedExpandFoldsTheSaltInWithoutRestart :
    ∃ (st : Nat → Tables) (w : Nat → Word × Word), 1 ≤ 3 ∧ st 0 = loadTables ∧ w 0 = (0, 0) ∧
      ∀ m < 521,
        w (m + 1) =
            encryptWords (st m) ((w m).1 ^^^ circularWord (holding [1, 2, 3]) 3 (2 * m),
              (w m).2 ^^^ circularWord (holding [1, 2, 3]) 3 (2 * m + 1)) ∧
          st (m + 1) = storePair m (w (m + 1)) (st m) :=
  ⟨fun m => (chain (fun m => (circularWord (holding [1, 2, 3]) 3 (2 * m),
      circularWord (holding [1, 2, 3]) 3 (2 * m + 1))) loadTables m).1,
    fun m => (chain (fun m => (circularWord (holding [1, 2, 3]) 3 (2 * m),
      circularWord (holding [1, 2, 3]) 3 (2 * m + 1))) loadTables m).2, by decide, rfl, rfl,
    fun _ _ => ⟨rfl, rfl⟩⟩

theorem witness_ZeroSaltExpandsAsThePlainSchedule :
    1 ≤ 2 ∧ ∀ i < 2, Memory.read [(2, 0xFF)] i = 0 := by decide

/-- A one-byte key and the same key written twice (95_test_vectors.md section 4.3); a salt and its repetition. -/
theorem witness_SchedulesReadOnlyTheCircularStreams :
    1 ≤ 1 ∧ 1 ≤ 2 ∧ (∀ t < 72, (holding [1]).read (t % 1) = (holding [1, 1]).read (t % 2)) ∧
      ∀ t < 4168, (holding [7]).read (t % 1) = (holding [7, 7]).read (t % 2) := by
  refine ⟨by decide, by decide, fun t _ => ?_, fun t _ => ?_⟩ <;>
    rcases Nat.mod_two_eq_zero_or_one t with h | h <;> rw [h, Nat.mod_one] <;> decide

theorem witness_NewcBuildsThePlainSchedule :
    State.reset.fsm ≠ .faulted ∧ (∀ n ∈ [1, 56], 1 ≤ { State.reset with keylen := n }.keylen ∧
      { State.reset with keylen := n }.keylen ≤ 56) ∧
      ∀ n ∈ [0, 57], { State.reset with keylen := n }.keylen < 1 ∨ 56 < { State.reset with keylen := n }.keylen := by
  decide

theorem witness_NewscBuildsTheSaltedSchedule :
    State.reset.fsm ≠ .faulted ∧ State.reset.saltlen = 0 ∧
      (1 ≤ { State.reset with saltlen := 1, keylen := 1 }.saltlen ∧
        1 ≤ { State.reset with saltlen := 1, keylen := 1 }.keylen) ∧
      1 ≤ { State.reset with saltlen := 1 }.saltlen ∧ { State.reset with saltlen := 1 }.keylen = 0 := by decide

theorem witness_BlkszReturnsEight : State.reset.fsm ≠ .faulted := by decide

theorem witness_EncbEncryptsOneBlock :
    let s := running 0x04 loadTables (hex 8 0x0123456789ABCDEF)
    s.fsm = .keyed ∧ s.srclen = 8 ∧ s.dstlen = 8 ∧ s.data.wf = true := by decide +kernel

theorem witness_DecbDecryptsOneBlock :
    let s := running 0x05 loadTables (hex 8 0x0123456789ABCDEF)
    s.fsm = .keyed ∧ s.srclen = 8 ∧ s.dstlen = 8 ∧ s.data.wf = true := by decide +kernel

theorem witness_WrongBlockLengthIsFatal :
    (running 0x04 Tables.zero (hex 7 0)).fsm = .keyed ∧ (running 0x04 Tables.zero (hex 7 0)).srclen ≠ 8 ∧
      { running 0x05 Tables.zero (hex 8 0) with dstlen := 9 }.fsm = .keyed ∧
      { running 0x05 Tables.zero (hex 8 0) with dstlen := 9 }.srclen = 8 ∧
      { running 0x05 Tables.zero (hex 8 0) with dstlen := 9 }.dstlen ≠ 8 := by decide +kernel

/-- With zero tables the block transforms swap the two words. -/
theorem witness_DecbAndEncbUndoEachOther :
    let s := running 0x04 Tables.zero (hex 8 0x0001020304050607)
    let u := running 0x05 Tables.zero (hex 8 0x0405060700010203)
    s.fsm = .keyed ∧ s.srclen = 8 ∧ s.dstlen = 8 ∧ s.data.wf = true ∧ u.fsm = .keyed ∧ u.srclen = 8 ∧ u.dstlen = 8 ∧
      u.data.wf = true ∧
      after (exec .encb s) (fun t => (List.range 8).all fun k => u.srcByte k == t.dstByte k) = true ∧
      after (exec .decb s) (fun t => (List.range 8).all fun k => u.srcByte k == t.dstByte k) = true := by decide +kernel

theorem witness_DecbAndEncbUndoEachOther_tables :
    (running 0x05 Tables.zero (hex 8 0x0405060700010203)).tab =
      (running 0x04 Tables.zero (hex 8 0x0001020304050607)).tab := rfl

theorem witness_EnccbcChainsThePaddedPlaintext :
    let s := answering #v[1, 2, 3, 4, 5, 6, 7, 8] (running 0x06 loadTables (hex 9 0x414243444546474849))
    s.fsm = .keyed ∧ s.data.wf = true ∧ s.rng = ⟨#v[1, 2, 3, 4, 5, 6, 7, 8], 8, false⟩ :: [] := by decide +kernel

theorem witness_ShortOrFailedRandomReadIsRefused :
    let s := { running 0x06 loadTables [] with
      rng := [⟨#v[1, 2, 3, 4, 5, 6, 7, 8], 7, false⟩, ⟨#v[1, 2, 3, 4, 5, 6, 7, 8], 8, true⟩] }
    s.fsm = .keyed ∧
      (∃ a rest, s.rng = a :: rest ∧ a.n.val < 8) ∧
      ∃ a rest, { s with rng := s.rng.tail }.rng = a :: rest ∧ a.fail = true :=
  ⟨rfl, ⟨_, _, rfl, by decide⟩, ⟨_, _, rfl, rfl⟩⟩

theorem witness_EnccbcWaitsForTheRandomSource :
    (running 0x06 Tables.zero []).cmd = some 0x06 ∧ (running 0x06 Tables.zero []).fsm = .keyed ∧
      (running 0x06 Tables.zero []).rng = [] ∧ noReset (running 0x06 Tables.zero []) := ⟨rfl, rfl, rfl, nofun⟩

theorem witness_DeccbcStripsTheTrailingRun :
    let s := running 0x07 Tables.zero (hex 16 0x000102030405060708090A0B0C0D0E0F)
    s.fsm = .keyed ∧ s.data.wf = true ∧ s.srclen % 8 = 0 ∧ 16 ≤ s.srclen := by decide +kernel

/-- The clause about the byte before the run needs a result of at least one byte. By hand with zero tables: the data
are `0C0C0CFC0C0C0C0C`, so 4 bytes remain; of `...0F` in the last byte none would. -/
theorem witness_DeccbcStripsTheTrailingRun_nonempty :
    after (exec .deccbc (running 0x07 Tables.zero (hex 16 0x000102030405060708090A0B0C0D0EFF)))
      (fun t => t.outlen == 4) = true ∧
    after (exec .deccbc (running 0x07 Tables.zero (hex 16 0x000102030405060708090A0B0C0D0E0F)))
      (fun t => t.outlen == 0) = true := by decide +kernel

theorem witness_MalformedCiphertextLengthIsRefused :
    (running 0x07 Tables.zero (hex 15 0)).fsm = .keyed ∧ (running 0x07 Tables.zero (hex 15 0)).srclen % 8 ≠ 0 ∧
      (running 0x07 Tables.zero []).srclen = 0 ∧ (running 0x07 Tables.zero (hex 8 0)).srclen = 8 := by decide +kernel

/-- The empty plaintext and its 16 ciphertext bytes under zero tables: the pad block `CC..` swapped is itself. -/
theorem witness_DeccbcUndoesEnccbc :
    let s := answering #v[0, 0, 0, 0, 0, 0, 0, 0] (running 0x06 Tables.zero [])
    let u := running 0x07 Tables.zero (hex 16 0xCCCCCCCCCCCCCCCC)
    s.fsm = .keyed ∧ s.data.wf = true ∧ s.rng = ⟨#v[0, 0, 0, 0, 0, 0, 0, 0], 8, false⟩ :: [] ∧ u.fsm = .keyed ∧
      u.data.wf = true ∧
      after (exec .enccbc s) (fun t => u.srclen == t.outlen &&
        (List.range t.outlen).all fun i => u.srcByte i == t.dstByte i) = true := by decide +kernel

theorem witness_DeccbcUndoesEnccbc_tables :
    (running 0x07 Tables.zero (hex 16 0xCCCCCCCCCCCCCCCC)).tab =
      (answering #v[0, 0, 0, 0, 0, 0, 0, 0] (running 0x06 Tables.zero [])).tab := rfl

theorem witness_KeyNeedingCommandsRefuseUnkeyed : State.reset.fsm = .unkeyed := rfl

/-- NOT_KEYED, a failed RNG read, and the fatal error. -/
theorem witness_FailedCommandWritesOnlyItsStatus :
    (∃ t, { running 0x04 Tables.zero [] with fsm := .unkeyed }.cmd = some 0x04 ∧
      exec .encb { running 0x04 Tables.zero [] with fsm := .unkeyed } = .next t ∧ t.cmd = none ∧ t.status ≠ 0x00) ∧
    (∃ t, exec .enccbc { running 0x06 Tables.zero [] with rng := [⟨#v[0, 0, 0, 0, 0, 0, 0, 0], 0, true⟩] } = .next t ∧
      t.cmd = none ∧ t.status = 0x03) ∧
    ∃ t, exec .encb (running 0x04 Tables.zero []) = .next t ∧ t.cmd = none ∧ t.status = 0x81 :=
  ⟨⟨_, rfl, rfl, rfl, by decide⟩, ⟨_, rfl, rfl, rfl⟩, ⟨_, rfl, rfl, rfl⟩⟩

theorem witness_FaultedCoreRefusesEveryCode :
    { running 0x2A Tables.zero [] with fsm := .faulted }.fsm = .faulted ∧
      { running 0x2A Tables.zero [] with fsm := .faulted }.cmd = some 0x2A ∧
      noReset { running 0x2A Tables.zero [] with fsm := .faulted } := ⟨rfl, rfl, nofun⟩

/-- NEWC outside `Faulted` with an 8-byte key constructs. -/
theorem newc_constructs {s : State} (hf : s.fsm ≠ .faulted) (h : s.keylen = 8) :
    exec .newc s = .next (construct (plainSchedule s.key 8) s) := by
  rcases newcBody_cases s with ⟨_, e⟩ | ⟨hn, _⟩
  · rw [← h, ← e]; exact inFrame_open hf
  · omega

/-- An `Unkeyed` core with the given tables executing NEWC with `K8`. -/
def keying (t : Tables) : State := { running 0x01 t [] with fsm := .unkeyed, key := k8, keylen := 8 }

theorem keying_step (t : Tables) : step (keying t) = .next (construct (plainSchedule k8 8) (keying t)) :=
  (step_executing (c := 0x01) rfl rfl).trans (newc_constructs (s := keying t) (by simp [keying]) rfl)

theorem witness_StateChangesOnlyAsTheTableSays :
    (∃ t, step (idle [.reset]) = .next t ∧ t.fsm ≠ (idle [.reset]).fsm) ∧
      (∃ t, step (keying Tables.zero) = .next t ∧ t.fsm ≠ (keying Tables.zero).fsm) ∧
      ∃ t, step (running 0x04 Tables.zero []) = .next t ∧ t.fsm ≠ (running 0x04 Tables.zero []).fsm :=
  ⟨⟨_, rfl, nofun⟩, ⟨_, keying_step _, nofun⟩, ⟨_, rfl, nofun⟩⟩

theorem witness_OnlyConstructionsWriteTheTables :
    ∃ t, step (keying Tables.zero) = .next t ∧ t.tab ≠ (keying Tables.zero).tab := by
  refine ⟨_, keying_step _, fun h => ?_⟩
  rw [construct, complete_tab] at h
  have := congrArg (fun t : Tables => t.P[2]) h
  simp only [test_plainSchedule_k8] at this
  exact absurd this (by decide)

theorem witness_OnlyCbcCommandsWriteTheIv :
    ∃ t, step (running 0x07 Tables.zero (hex 16 0x0102030405060708C01FAE768686E7B7)) = .next t ∧
      t.iv ≠ (running 0x07 Tables.zero (hex 16 0x0102030405060708C01FAE768686E7B7)).iv := by
  refine ⟨_, rfl, fun h => ?_⟩
  have := congrArg (fun b : Block => b[0]) h
  revert this; decide +kernel

theorem witness_EveryStepKeepsTheInvariant :
    ∃ t, inv { State.reset with cmd := some 0x03 } = true ∧ step { State.reset with cmd := some 0x03 } = .next t :=
  ⟨_, by decide, rfl⟩

/-- A state outside `Unkeyed` with constructed tables, executing DECB; the bounds 0 and 1 on the salt. -/
theorem witness_EveryStepKeepsTheTablesConstructed :
    let s := running 0x05 (plainSchedule k8 8) []
    let u := { running 0x05 (saltedSchedule k8 8 [] 1) [] with saltlen := 1 }
    (∃ t, s.saltlen ≤ 0 ∧ TablesConstructedWithin 0 s ∧ s.fsm = .keyed ∧ step s = .next t) ∧
      ∃ t, u.saltlen ≤ 1 ∧ TablesConstructedWithin 1 u ∧ u.fsm = .keyed ∧ step u = .next t :=
  ⟨⟨_, by decide, fun _ => .inl ⟨k8, 8, by decide, by decide, rfl⟩, rfl, rfl⟩,
    ⟨_, by decide, fun _ => .inr ⟨k8, 8, [], 1, by decide, by decide, by decide, rfl⟩, rfl, rfl⟩⟩

/-- A step that constructs, out of `Unkeyed`, and one that keeps the tables, in `Keyed`. -/
theorem witness_EveryStepKeepsTheTablesOrBuildsThemFromItsOperands :
    (∃ t, step (keying Tables.zero) = .next t ∧ t.fsm ≠ .unkeyed) ∧
      ∃ t, step (running 0x03 Tables.zero []) = .next t ∧ t.fsm ≠ .unkeyed :=
  ⟨⟨_, keying_step _, nofun⟩, ⟨_, rfl, nofun⟩⟩

/-- A run of two steps from a state that constructs: the construction, then the host's read of `STATE`. -/
theorem run_of_constructs {s : State} {t : Tables} (h : Constructs s t) (hh : s.host = [.readReg (.ro .state)]) :
    ∃ x : Nat → State, x 0 = s ∧ (∀ m < 2, step (x m) = .next (x (m + 1))) ∧ (x 2).fsm ≠ .unkeyed := by
  refine ⟨fun
    | 0 => s
    | 1 => construct t s
    | _ => readReg (.ro .state) { construct t s with host := [] }, rfl, fun m hm => ?_, nofun⟩
  rcases (by omega : m = 0 ∨ m = 1) with rfl | rfl
  · exact step_of_constructs h
  · exact step_idle (s := construct t s) rfl hh

/-- The core of `keying` whose host then reads `STATE`. -/
theorem witness_TablesAreThoseOfTheLastConstruction :
    ∃ x : Nat → State, (x 0).fsm = .unkeyed ∧ (∀ m < 2, step (x m) = .next (x (m + 1))) ∧ (x 2).fsm ≠ .unkeyed := by
  have h : Constructs { keying Tables.zero with host := [.readReg (.ro .state)] } (plainSchedule k8 8) :=
    ⟨nofun, by simp, .newc, rfl, .inl ⟨by simp [keying], by simp [keying], .inl rfl, rfl⟩⟩
  obtain ⟨x, h0, hx⟩ := run_of_constructs h rfl
  exact ⟨x, by rw [h0]; rfl, hx⟩

/-- Two states that agree on the operands read and differ in the tables and in a key byte beyond `KEYLEN`. -/
theorem witness_ConstructionForgetsThePreviousState :
    let s := keying Tables.zero
    let s' := { keying loadTables with key := k8.write 8 0xFF }
    ∃ t t', s.fsm ≠ .faulted ∧ s'.fsm ≠ .faulted ∧ s.keylen = s'.keylen ∧ s.saltlen = s'.saltlen ∧
      (∀ k < s.keylen, s.key.read k = s'.key.read k) ∧ (∀ k < s.saltlen, s.salt.read k = s'.salt.read k) ∧
      exec .newc s = .next t ∧ exec .newc s' = .next t' ∧ t.status = 0x00 :=
  ⟨_, _, nofun, nofun, rfl, rfl, by decide +kernel, nofun, newc_constructs nofun rfl, newc_constructs nofun rfl, rfl⟩

/-- The IV differs in `Keyed`; the tables differ in `Unkeyed`. -/
theorem witness_HiddenStateNeverReachesTheHost :
    (∃ t, SameToHost (running 0x03 Tables.zero []) { running 0x03 Tables.zero [] with iv := #v[1, 2, 3, 4, 5, 6, 7, 8] } ∧
      step (running 0x03 Tables.zero []) = .next t) ∧
      SameToHost State.reset { State.reset with tab := loadTables } :=
  ⟨⟨_, ⟨rfl, fun _ => rfl⟩, rfl⟩, ⟨rfl, nofun⟩⟩

end Sys2Proof.Tests
end

section
/-! PROOF. The circular reader `NextWord` (00_scope.md rule R8). -/

namespace Sys2Proof.Proofs

open Sys2Proof.Machine

/-- Settles O21: `nextWord_eq`, the closed form of the reader, which holds for every length and cursor. -/
theorem nextWordReadsCircularly : Obligations.NextWordReadsCircularly :=
  fun buf n j _ _ => nextWord_eq buf n j

end Sys2Proof.Proofs
end

section
/-! PROOF. The round transforms and their byte order (40_round_transform.md rules R81 to R86). -/

namespace Sys2Proof.Proofs

open Sys2Proof.Machine

/-! ## The substitution unit -/

/-- A table entry by the value of its index byte (rule R81). -/
theorem sbox_eq_getElem_toNat (t : Tables) (k : Fin 4) (i : Byte) : t.sbox k i = t.S[k][i.toNat]! :=
  (getElem!_pos t.S[k] i.toNat i.isLt).symm

/-- Settles O15: each table index is a byte of `b`, as a quotient and remainder. -/
theorem substitutionUnitGroupsSumXorSum : Obligations.SubstitutionUnitGroupsSumXorSum := by
  intro t b
  simp only [F, sbox_eq_getElem_toNat, toNat_byte3, toNat_byte2, toNat_byte1, toNat_byte0]
  rfl

/-! ## The rounds as a sequence of word pairs -/

/-- A loop over the round numbers ends in `x 16` when its turn `i`, counted from 0, is round `i + 1` (rule R83). -/
theorem foldl_roundNumbers {σ : Type} (f : σ → Fin 18 → σ) (x : Nat → σ)
    (h : ∀ i (hi : i < 16), x (i + 1) = f (x i) ⟨i + 1, by omega⟩) : roundNumbers.foldl f (x 0) = x 16 := by
  have hmap : roundNumbers = (List.finRange 16).map fun i => ⟨i + 1, by omega⟩ := by decide
  rw [hmap, List.foldl_map]
  exact foldl_finRange _ x h

/-- A loop over the reversed round numbers ends in `x 16` when its turn `i` is round `16 - i` (rule R84). -/
theorem foldl_reverse_roundNumbers {σ : Type} (f : σ → Fin 18 → σ) (x : Nat → σ)
    (h : ∀ i (hi : i < 16), x (i + 1) = f (x i) ⟨16 - i, by omega⟩) : roundNumbers.reverse.foldl f (x 0) = x 16 := by
  have hmap : roundNumbers.reverse = (List.finRange 16).map fun i => ⟨16 - i, by omega⟩ := by decide
  rw [hmap, List.foldl_map]
  exact foldl_finRange _ x h

/-- Settles O16: the `n`-th pair comes from round `n` of the loop. -/
theorem encryptWordsRunsSixteenRounds : Obligations.EncryptWordsRunsSixteenRounds := by
  intro t L R x h0 hx
  have hround : ∀ i (hi : i < 16), x (i + 1) = encRound t (x i) ⟨i + 1, by omega⟩ :=
    fun i hi => hx (i + 1) ⟨by omega, by omega⟩
  rw [encryptWords, ← h0, foldl_roundNumbers _ x hround]

/-- Settles O17: the `k`-th pair comes from round `17 - k` of the loop. -/
theorem decryptWordsRunsTheRoundsBackward : Obligations.DecryptWordsRunsTheRoundsBackward := by
  intro t L R x h0 hx
  have hround : ∀ i (hi : i < 16), x (i + 1) = decRound t (x i) ⟨16 - i, by omega⟩ := fun i hi => by
    have hk := hx (i + 1) ⟨by omega, by omega⟩
    simp only [Nat.add_sub_cancel, show 17 - (i + 1) = 16 - i by omega] at hk
    exact hk
  rw [decryptWords, ← h0, foldl_reverse_roundNumbers _ x hround]

/-! ## Byte order -/

/-- The word pair of a block, by the values of its words (rule R86, input). -/
theorem blockWords_eq_of_toNat {b : Block} {L R : Word}
    (hL : L.toNat = b[0].toNat * 2 ^ 24 + b[1].toNat * 2 ^ 16 + b[2].toNat * 2 ^ 8 + b[3].toNat)
    (hR : R.toNat = b[4].toNat * 2 ^ 24 + b[5].toNat * 2 ^ 16 + b[6].toNat * 2 ^ 8 + b[7].toNat) :
    blockWords b = (L, R) :=
  Prod.ext (BitVec.eq_of_toNat_eq ((toNat_be32 ..).trans hL.symm))
    (BitVec.eq_of_toNat_eq ((toNat_be32 ..).trans hR.symm))

/-- The bytes of a word pair's block, most significant first, left word first (rule R86, output). -/
theorem toNat_getElem_wordsBlock (w : Word × Word) (k : Nat) (hk : k < 4) :
    (wordsBlock w)[k].toNat = w.1.toNat / 2 ^ (24 - 8 * k) % 256 ∧
      (wordsBlock w)[k + 4].toNat = w.2.toNat / 2 ^ (24 - 8 * k) % 256 := by
  have top (v : Word) : (byte3 v).toNat = v.toNat / 2 ^ 24 % 256 := by
    have := toNat_byte3 v
    have := (byte3 v).isLt
    omega
  have low (v : Word) : (byte0 v).toNat = v.toNat / 2 ^ 0 % 256 := by rw [toNat_byte0, pow_zero, Nat.div_one]
  obtain rfl | rfl | rfl | rfl : k = 0 ∨ k = 1 ∨ k = 2 ∨ k = 3 := by omega
  · exact ⟨top w.1, top w.2⟩
  · exact ⟨toNat_byte2 w.1, toNat_byte2 w.2⟩
  · exact ⟨toNat_byte1 w.1, toNat_byte1 w.2⟩
  · exact ⟨low w.1, low w.2⟩

/-- Settles O19: `(L, R)` is the block's word pair, and each transform writes out the bytes of its result pair. -/
theorem blockTransformsAreBigEndian : Obligations.BlockTransformsAreBigEndian := by
  intro t b L R hL hR
  simp only [encryptBlock, decryptBlock, blockWords_eq_of_toNat hL hR]
  exact ⟨toNat_getElem_wordsBlock _, toNat_getElem_wordsBlock _⟩

end Sys2Proof.Proofs
end

section
/-! PROOF. The key schedules: the key folded into `P`, and an expansion as one chain of 521 encryptions
(41_key_schedule.md rules R102 to R106). -/

namespace Sys2Proof.Proofs

open Sys2Proof.Machine Sys2Proof.Claims

/-- At the cursor `4q mod n`, where it stands after `q` words, the reader gives circular word `q` (00_scope.md rule
R8). -/
theorem nextWord_circularWord (buf : Memory) (n q : Nat) :
    nextWord buf n (4 * q % n) = (circularWord buf n q, 4 * (q + 1) % n) := by
  simp only [nextWord_eq, circularWord, Nat.mod_add_mod, Nat.mul_succ]

/-! ## KeyXorPass -/

/-- The tables and the key cursor after `m` turns of KeyXorPass: the entries of `P` below `m` have taken their key
word. -/
def keyXorState (key : Memory) (n : Nat) (t : Tables) (m : Nat) : Tables × Nat :=
  ({ t with P := Vector.ofFn fun i => if i.val < m then t.P[i] ^^^ circularWord key n i else t.P[i] }, 4 * m % n)

theorem keyXorState_zero (key : Memory) (n : Nat) (t : Tables) : keyXorState key n t 0 = (t, 0) := by
  simp [keyXorState]

/-- Turn `m` of KeyXorPass's loop takes the state before it to the state after it. -/
theorem keyXorState_succ (key : Memory) (n : Nat) (t : Tables) (m : Nat) (hm : m < 18) :
    keyXorState key n t (m + 1) = keyXorStep key n (keyXorState key n t m) ⟨m, hm⟩ := by
  simp only [keyXorStep, keyXorState, nextWord_circularWord, Prod.mk.injEq, Tables.mk.injEq, and_true]
  apply Vector.ext
  intro k hk
  rw [Vector.getElem_set]
  split
  case isTrue h => subst h; simp
  case isFalse h =>
    have hlt : k ≤ m ↔ k < m := by omega
    simp [hlt]

theorem keyXorPass_eq (key : Memory) (n : Nat) (t : Tables) : keyXorPass key n t = (keyXorState key n t 18).1 := by
  rw [keyXorPass, ← keyXorState_zero key n t, foldl_finRange _ _ (keyXorState_succ key n t)]

/-- Settles O22: after 18 turns every entry of `P` has taken its key word. -/
theorem keyXorPassFoldsTheKeyWords : Obligations.KeyXorPassFoldsTheKeyWords := by
  intro key n t _
  rw [keyXorPass_eq]
  constructor
  · rfl
  · intro i hi
    simp [keyXorState]

/-! ## The expansions -/

/-- The in-flight block stored in the `m`-th pair of slots of the expansion's order (rule R104). -/
def storeInPair (m : Nat) (f : Flight) : Flight := { f with tab := storePair m (f.l, f.r) f.tab }

/-- The first 9 pairs of slots are those of `P`. -/
theorem storeP_eq_storeInPair (f : Flight) (i : Fin 9) : f.storeP i = storeInPair i f := by
  rw [storeInPair, storePair, dif_pos i.isLt]
  rfl

/-- Pair `i` of `S[k]` comes after the 9 pairs of `P` and the 128 of each table before it. -/
theorem storeS_eq_storeInPair (f : Flight) (k : Fin 4) (i : Fin 128) :
    f.storeS k i = storeInPair (9 + 128 * k + i) f := by
  have hk : (9 + 128 * k.val + i.val - 9) / 128 = k.val := by omega
  have hi : (9 + 128 * k.val + i.val - 9) % 128 = i.val := by omega
  rw [storeInPair, storePair, dif_neg (by omega), dif_pos (by omega)]
  simp only [hk, hi]
  rfl

/-- An expansion ends in `x 521` when `x` is a sequence of flights each of which is the one before it mixed, encrypted
and stored in the next pair of slots: the nested loops run through one chain. -/
theorem expandLoop_eq_of_chain (mix : Flight → Flight) (x : Nat → Flight)
    (hx : ∀ m < 521, x (m + 1) = storeInPair m (mix (x m)).encrypt) : expandLoop mix (x 0) = x 521 := by
  have hP : (List.finRange 9).foldl (fun f i => (mix f).encrypt.storeP i) (x 0) = x 9 :=
    foldl_finRange _ x fun i hi => by rw [storeP_eq_storeInPair, hx i (by omega)]
  have hrow (k : Fin 4) : (List.finRange 128).foldl (fun f i => (mix f).encrypt.storeS k i) (x (9 + 128 * k)) =
      x (9 + 128 * (k + 1)) :=
    foldl_finRange _ (fun i => x (9 + 128 * k + i)) fun i hi => by
      rw [storeS_eq_storeInPair, ← hx (9 + 128 * k + i) (by omega)]
      rfl
  rw [expandLoop, hP]
  exact foldl_finRange _ (fun k => x (9 + 128 * k)) fun k hk => (hrow ⟨k, hk⟩).symm

/-- Settles O23: the flights of the chain carry `st m` and `w m`, and nothing is mixed in. -/
theorem plainExpandChainsItsEncryptions : Obligations.PlainExpandChainsItsEncryptions := by
  intro t st w hst hw hchain
  have hloop := expandLoop_eq_of_chain id (fun m => ⟨st m, (w m).1, (w m).2, 0⟩) fun m hm => by
    obtain ⟨hwm, hstm⟩ := hchain m hm
    rw [hstm, hwm]
    rfl
  rw [hst, hw] at hloop
  rw [plainExpand, hloop]

/-- With the salt cursor `4q mod n` the salt's circular words `q` and `q + 1` are folded in (rules R105, R106). -/
theorem mixSalt_eq (salt : Memory) (n q : Nat) (t : Tables) (l r : Word) :
    Flight.mixSalt salt n ⟨t, l, r, 4 * q % n⟩ =
      ⟨t, l ^^^ circularWord salt n q, r ^^^ circularWord salt n (q + 1), 4 * (q + 2) % n⟩ := by
  simp only [Flight.mixSalt, nextWord_circularWord]

/-- Settles O24: as O23, the flight before encryption `m` with its salt cursor after `2m` words. -/
theorem saltedExpandFoldsTheSaltInWithoutRestart : Obligations.SaltedExpandFoldsTheSaltInWithoutRestart := by
  intro salt n t st w _ hst hw hchain
  have hloop := expandLoop_eq_of_chain (Flight.mixSalt salt n)
    (fun m => ⟨st m, (w m).1, (w m).2, 4 * (2 * m) % n⟩) fun m hm => by
      obtain ⟨hwm, hstm⟩ := hchain m hm
      rw [mixSalt_eq, hstm, hwm]
      rfl
  rw [hst, hw, Nat.zero_mod] at hloop
  rw [saltedExpand, hloop]

end Sys2Proof.Proofs
end

section
/-! PROOF. NEWC, NEWSC and BLKSZ (42_cipher_commands.md rules R121 to R123). -/

namespace Sys2Proof.Proofs

open Sys2Proof.Machine

/-- Outside `Faulted` a command that needs no key runs its own rule, `Unkeyed` or `Keyed` (60_exceptions.md rule
R179). -/
theorem exec_eq_commandBody {i : Instr} {s : State} (hk : commandNeedsKey i = false) (hf : s.fsm ≠ .faulted) :
    exec i s = .next (commandBody i s) := by
  rw [exec_eq_inFrame, hk, inFrame_open hf]

/-- The next state of a construction, field by field, from whichever table `t` it builds. -/
theorem exec_of_builds {i : Instr} {s : State} {t : Tables} (hf : s.fsm ≠ .faulted) (hb : Safety.Builds i s t) :
    exec i s = .next { s with tab := t, fsm := .keyed, status := 0x00, errinfo := 0, outlen := 0, cmd := none } := by
  obtain ⟨hk, hc⟩ := commandBody_of_builds hb
  rw [exec_eq_commandBody hk hf, hc]
  rfl

/-- Settles O27: a key of 1 to 56 bytes is what `Builds` asks of NEWC; any other leaves only the KEY_SIZE case. -/
theorem newcBuildsThePlainSchedule : Obligations.NewcBuildsThePlainSchedule := by
  intro s hf
  refine ⟨fun ⟨hmin, hmax⟩ => exec_of_builds hf (.inl ⟨hmin, hmax, .inl rfl, rfl⟩), fun hbad => ?_⟩
  rcases newcBody_cases s with ⟨hok, _⟩ | ⟨_, hraise⟩
  · omega
  · exact (exec_eq_commandBody rfl hf).trans (congrArg _ hraise)

/-- Settles O28: each clause singles out one of the three cases of `newscBody_cases`. -/
theorem newscBuildsTheSaltedSchedule : Obligations.NewscBuildsTheSaltedSchedule := by
  intro s hf
  refine ⟨fun hempty => ?_, fun hsalt hkey => exec_of_builds hf (.inr ⟨hkey, hsalt, rfl, rfl⟩), fun hsalt hkey => ?_⟩
  · have hbody : commandBody .newsc s = commandBody .newc s := if_pos hempty
    rw [exec_eq_commandBody rfl hf, exec_eq_commandBody rfl hf, hbody]
  · rcases newscBody_cases s with ⟨hempty, _⟩ | ⟨_, _, hraise⟩ | ⟨_, hne, _⟩
    · omega
    · rw [hkey] at hraise
      exact (exec_eq_commandBody rfl hf).trans (congrArg _ hraise)
    · exact absurd hkey hne

/-- Settles O29: BLKSZ's own rule is one normal completion, and it needs no key. -/
theorem blkszReturnsEight : Obligations.BlkszReturnsEight :=
  fun _ hf => exec_eq_commandBody rfl hf

end Sys2Proof.Proofs
end

section
/-! PROOF. The CBC commands (43_cbc.md). -/

namespace Sys2Proof.Proofs

open Sys2Proof.Machine

/-- Settles O38: of the two cases of `deccbcBody_cases` such a length leaves only the refusal, which reads neither `SRC`
nor the tables. -/
theorem malformedCiphertextLengthIsRefused : Obligations.MalformedCiphertextLengthIsRefused := by
  intro s hkeyed hlen
  rcases deccbcBody_cases s with ⟨_, hraise⟩ | ⟨hmod, hmin, _⟩
  · exact (inFrame_keyed hkeyed).trans (congrArg _ hraise)
  · omega

end Sys2Proof.Proofs
end

section
/-! PROOF. The exceptions: a reserved code, a missing key, a bad answer of the RNG (60_exceptions.md rules R174 to
R176). -/

namespace Sys2Proof.Proofs

open Sys2Proof.Machine

/-! ## ILLEGAL_COMMAND -/

/-- The codes of the commands are 0x01 to 0x07 (30_encoding.md rule R61). -/
theorem encode_toNat_bounds (i : Instr) : 1 ≤ (encode i).toNat ∧ (encode i).toNat ≤ 7 := by
  cases i <;> decide

/-- A code outside 0x01 to 0x07 selects no command (30_encoding.md rule R63). -/
theorem decode_eq_reserved {c : Byte} (hc : c = 0x00 ∨ 8 ≤ c.toNat) : decode c = .reserved c := by
  rcases decode_cases c with ⟨i, _, rfl⟩ | ⟨hreserved, _⟩
  case inl =>
    obtain ⟨hmin, hmax⟩ := encode_toNat_bounds i
    rcases hc with hzero | hbig
    · simp [hzero] at hmin
    · omega
  case inr => exact hreserved

theorem execReserved_open {c : Byte} {s : State} (hf : s.fsm ≠ .faulted) :
    execReserved c s = .next (raise .illegalCommand c.toNat s) :=
  if_neg hf

/-- Settles O3: no move of the host lands, the decoder answers the code itself, and outside `Faulted` such a code raises
ILLEGAL_COMMAND. -/
theorem reservedCodeRaisesIllegalCommand : Obligations.ReservedCodeRaisesIllegalCommand := by
  intro s c hcmd hhost hf hc
  have hwaits : hostActs s = false := hostActs_of_executing hcmd hhost
  rw [step_executing hcmd hwaits, runCode, decode_eq_reserved hc]
  exact execReserved_open hf

/-! ## RNG_FAILURE -/

/-- Too few bytes or a reported failure, either one, makes an answer one that does not serve (43_cbc.md rule R152). -/
theorem good_eq_false {a : RngAnswer} (hbad : a.n.val < 8 ∨ a.fail = true) : a.good = false := by
  rcases hbad with hshort | hfail
  · simp [RngAnswer.good, hshort.ne]
  · simp [RngAnswer.good, hfail]

/-- ENCCBC's own rule on an answer that does not serve. -/
theorem enccbcBody_of_not_good {s : State} {a : RngAnswer} {rest : List RngAnswer} (hrng : s.rng = a :: rest)
    (hbad : a.good = false) : enccbcBody s = raise .rngFailure a.n.val { s with rng := rest } := by
  rcases enccbcBody_cases s with ⟨hnone, _⟩ | ⟨b, rest', hcons, hanswered⟩
  case inl => simp [hrng] at hnone
  case inr =>
    obtain ⟨rfl, rfl⟩ := List.cons.inj (hrng.symm.trans hcons)
    rcases hanswered with ⟨_, hraise⟩ | ⟨hgood, _⟩
    · exact hraise
    · simp [hbad] at hgood

/-- Settles O35: in `Keyed` ENCCBC runs its own rule, on an answer that does not serve. -/
theorem shortOrFailedRandomReadIsRefused : Obligations.ShortOrFailedRandomReadIsRefused := by
  intro s a rest hkeyed hrng hbad
  exact (inFrame_keyed hkeyed).trans (congrArg _ (enccbcBody_of_not_good hrng (good_eq_false hbad)))

/-! ## NOT_KEYED -/

/-- Settles O40: each of the four commands needs a key, and the frame's test for it comes before the command's own rule
(rule R179). -/
theorem keyNeedingCommandsRefuseUnkeyed : Obligations.KeyNeedingCommandsRefuseUnkeyed := by
  intro s i hunkeyed hi
  have hkey : commandNeedsKey i = true := by rcases hi with rfl | rfl | rfl | rfl <;> rfl
  rw [exec_eq_inFrame, hkey]
  exact inFrame_notKeyed hunkeyed

end Sys2Proof.Proofs
end

section
/-! PROOF. The decoder (30_encoding.md rules R60, R61) and what a step does with the code in `CMD` and with the host's
moves (10_state.md rule R16, 70_reset_and_hazards.md rules R205, R213). -/

namespace Sys2Proof.Proofs

open Sys2Proof.Machine Sys2Proof.Safety Sys2Proof.Claims

/-! ## The decoder -/

theorem decode_encode (i : Instr) : decode (encode i) = .command i := by cases i <;> rfl

/-- A code that selects a command is that command's code. -/
theorem eq_encode_of_decode {c : Byte} {i : Instr} (h : decode c = .command i) : c = encode i := by
  rcases decode_cases c with ⟨j, hj, hc⟩ | ⟨hreserved, _⟩
  · rw [hj] at h
    cases h
    exact hc
  · rw [hreserved] at h
    cases h

/-- Settles O1: the seven rows of the opcode table, each computed. -/
theorem commandCodesDecodeToTheirCommands : Obligations.CommandCodesDecodeToTheirCommands := by
  unfold Obligations.CommandCodesDecodeToTheirCommands
  decide

/-- Settles O2: `decode_encode` and its converse. -/
theorem decodeInvertsEncode : Obligations.DecodeInvertsEncode :=
  ⟨fun i _ => decode_encode i, fun _ _ => eq_encode_of_decode⟩

/-! ## A command executing -/

/-- A core on which no move of the host lands is not about to be reset. -/
theorem noReset_of_hostActs {s : State} (h : hostActs s = false) : noReset s := by
  intro rest hhost
  rw [hostActs, hhost] at h
  cases h

theorem step_command {s : State} {c : Byte} {i : Instr} (hcmd : s.cmd = some c) (hhost : noReset s)
    (hdecode : decode c = .command i) : step s = exec i s := by
  rw [step_executing hcmd (hostActs_of_executing hcmd hhost), runCode, hdecode]

/-- Settles O4. -/
theorem stepExecutesTheDecodedCommand : Obligations.StepExecutesTheDecodedCommand :=
  fun _ _ _ => step_command

/-- A list of moves held back by a wait does not begin with a reset. -/
theorem holdReset_ne_reset (host rest : List HostMove) : holdReset host ≠ .reset :: rest := by
  unfold holdReset
  split
  · simp
  · rename_i h
    exact h rest

/-- Settles O5: the word's code stands in `CMD` and the host's list is held back. -/
theorem placedTableWordRunsNext : Obligations.PlacedTableWordRunsNext := by
  intro s nbits w i h
  have hdecode : decode (tableCode nbits w) = .command i := by
    unfold decodeTableWord at h
    cases hd : decode (tableCode nbits w) with
    | command j => rw [hd] at h; exact congrArg _ (Option.some.inj h)
    | reserved k => rw [hd] at h; cases h
  exact step_command rfl (holdReset_ne_reset s.host) hdecode

/-- The frame answers a next state on each of its paths (60_exceptions.md rule R179). -/
theorem exec_answers (i : Instr) (s : State) : ∃ t, exec i s = .next t := by
  rw [exec_eq_inFrame, inFrame]
  split
  · exact ⟨_, rfl⟩
  · split <;> exact ⟨_, rfl⟩

theorem execReserved_answers (c : Byte) (s : State) : ∃ t, execReserved c s = .next t := by
  unfold execReserved
  split <;> exact ⟨_, rfl⟩

/-- Settles O7: a host move, a command, a reserved code and the idle core each answer a next state. -/
theorem everyStepAnswersNext : Obligations.EveryStepAnswersNext := by
  intro s
  unfold step
  split
  · exact ⟨_, rfl⟩
  · split
    · unfold runCode
      split
      · exact exec_answers _ s
      · exact execReserved_answers _ s
    · exact ⟨_, rfl⟩

/-- Settles O8: whether the code is refused, raises an error or runs the command's own rule, the host's operands stay. -/
theorem executingCommandHoldsTheHostBack : Obligations.ExecutingCommandHoldsTheHostBack := by
  intro s t c hcmd hhost h
  rcases step_cases h with ⟨ha, _⟩ | ⟨_, _, i, _, _, hexec⟩ | ⟨_, _, k, _, _, hexec⟩ | ⟨_, hidle, _⟩
  · obtain ⟨rest, hreset⟩ := hostActs_executing hcmd ha
    exact absurd hreset (hhost rest)
  · rcases exec_cases hexec with ⟨_, rfl⟩ | ⟨_, _, rfl⟩ | ⟨_, _, rfl⟩
    · simp
    · simp
    · exact commandBody_keeps i s
  · rcases execReserved_cases hexec with ⟨_, rfl⟩ | ⟨_, rfl⟩ <;> simp
  · simp [hcmd] at hidle

/-- Settles O42: a command and a reserved code alike meet the refusal. -/
theorem faultedCoreRefusesEveryCode : Obligations.FaultedCoreRefusesEveryCode := by
  intro s c hf hcmd hhost
  rw [step_executing hcmd (hostActs_of_executing hcmd hhost), runCode]
  split
  · rw [exec_eq_inFrame, inFrame_faulted hf]
    rfl
  · exact if_pos hf

/-- Settles O36: without an answer ENCCBC's own rule changes nothing. -/
theorem enccbcWaitsForTheRandomSource : Obligations.EnccbcWaitsForTheRandomSource := by
  intro s hcmd hkeyed hrng hhost
  rw [step_command hcmd hhost (decode_encode .enccbc), exec_eq_inFrame, inFrame_keyed hkeyed]
  rcases enccbcBody_cases s with ⟨_, hwait⟩ | ⟨a, rest, hcons, _⟩
  · exact congrArg _ hwait
  · simp [hrng] at hcons

/-! ## The host's moves on an idle core -/

/-- Settles O6. -/
theorem writeOfCmdStartsTheCommand : Obligations.WriteOfCmdStartsTheCommand :=
  fun _ _ _ hidle hhost => step_idle hidle hhost

/-- Settles O9: each length register has its arm of `setLenReg`. -/
theorem hostWritesLengthRegisters : Obligations.HostWritesLengthRegisters :=
  fun _ _ _ hidle => ⟨step_idle hidle, step_idle hidle, step_idle hidle, step_idle hidle⟩

/-- Settles O10. -/
theorem readOnlyRegistersIgnoreWrites : Obligations.ReadOnlyRegistersIgnoreWrites :=
  fun _ _ _ _ hidle hhost => step_idle hidle hhost

/-- The coding of `STATE` (10_state.md rule R15). -/
theorem toNat_fsm_code (f : Fsm) : f.code.toNat = match f with | .unkeyed => 0 | .keyed => 1 | .faulted => 2 := by
  cases f <;> rfl

/-- Settles O11: a read only sets `readData`; what `STATE` and `CMD` read as needs a word. -/
theorem hostReadsHaveNoSideEffect : Obligations.HostReadsHaveNoSideEffect := by
  intro s rest hidle
  refine ⟨step_idle hidle, step_idle hidle, step_idle hidle, step_idle hidle, step_idle hidle, step_idle hidle,
    step_idle hidle, fun hhost => ?_, step_idle hidle, fun i => step_idle hidle, fun hhost => ?_⟩
  · exact (step_idle hidle hhost).trans
      (congrArg (fun v => Host.Outcome.next { s with host := rest, readData := v }) (toNat_fsm_code s.fsm))
  · exact ⟨_, (Config.cmdReadValue s.draws).isLt, step_idle hidle hhost⟩

/-! ## A host write to a buffer -/

/-- A string written to a buffer reads back at its indices. -/
theorem bufByte_memWrite_in {s : State} {b : Buf} (hwf : (s.bufMem b).wf = true) (off : Nat) {bs : List Byte} {i : Nat}
    (hi : i < bs.length) : (s.memWrite b off bs).bufByte b (off + i) = bs[i] := by
  rw [State.bufByte, State.bufMem_memWrite, State.bufAddr_memWrite, read_memWriteAt_same (s.bufAddr_inj b) hwf hi]
  simp [byteAt, hi]

/-- A string write to a buffer leaves every other place of its storage alone. -/
theorem read_bufMem_memWrite {s : State} {b : Buf} (hwf : (s.bufMem b).wf = true) {off a : Nat} {bs : List Byte}
    (ha : ∀ i < bs.length, a ≠ s.bufAddr b (off + i)) :
    ((s.memWrite b off bs).bufMem b).read a = (s.bufMem b).read a := by
  rw [State.bufMem_memWrite, read_memWriteAt_other hwf ha]

/-- A string write to a buffer leaves its bytes at other indices alone. -/
theorem bufByte_memWrite_out {s : State} {b : Buf} (hwf : (s.bufMem b).wf = true) {off j : Nat} {bs : List Byte}
    (hj : j < off ∨ off + bs.length ≤ j) : (s.memWrite b off bs).bufByte b j = s.bufByte b j := by
  rw [State.bufByte, State.bufAddr_memWrite, read_bufMem_memWrite hwf, State.bufByte]
  intro i hi heq
  have := s.bufAddr_inj b _ _ heq
  omega

/-- Only a write to `KEY` changes its storage. -/
theorem key_memWrite {b : Buf} (hb : b ≠ .key) (off : Nat) (bs : List Byte) (s : State) :
    (s.memWrite b off bs).key = s.key := by
  cases b
  case key => exact absurd rfl hb
  all_goals rfl

/-- Only a write to `SALT` changes its storage. -/
theorem salt_memWrite {b : Buf} (hb : b ≠ .salt) (off : Nat) (bs : List Byte) (s : State) :
    (s.memWrite b off bs).salt = s.salt := by
  cases b
  case salt => exact absurd rfl hb
  all_goals rfl

theorem wf_bufMem {s : State} (hwf : storagesWf s = true) (b : Buf) : (s.bufMem b).wf = true := by
  simp only [storagesWf, Bool.and_eq_true] at hwf
  obtain ⟨⟨hkey, hsalt⟩, hdata⟩ := hwf
  cases b
  · exact hkey
  · exact hsalt
  · exact hdata
  · exact hdata

/-- A write to `SRC` leaves `DST` alone when the two are distinct. -/
theorem dstByte_memWrite_src {s : State} (hwf : s.data.wf = true) (hd : s.wiring = .distinct) (off j : Nat)
    (bs : List Byte) : (s.memWrite .src off bs).dstByte j = s.dstByte j := by
  rw [State.dstByte, memWrite_wiring]
  refine read_bufMem_memWrite (b := .src) hwf fun i _ => ?_
  rw [State.bufAddr, hd]
  exact (Wiring.distinct_apart _ j).symm

/-- A write to `DST` leaves `SRC` alone when the two are distinct. -/
theorem srcByte_memWrite_dst {s : State} (hwf : s.data.wf = true) (hd : s.wiring = .distinct) (off j : Nat)
    (bs : List Byte) : (s.memWrite .dst off bs).srcByte j = s.srcByte j := by
  rw [State.srcByte, memWrite_wiring]
  refine read_bufMem_memWrite (b := .dst) hwf fun i _ => ?_
  rw [State.bufAddr, hd]
  exact Wiring.distinct_apart j _

/-- Settles O12: the step is the string write, and each clause one of the laws above. -/
theorem hostBufferWriteStoresItsBytes : Obligations.HostBufferWriteStoresItsBytes := by
  intro s b off bytes rest hidle hwf hhost
  have hmem : (State.bufMem { s with host := rest } b).wf = true := wf_bufMem (s := { s with host := rest }) hwf b
  have hdata : s.data.wf = true := wf_bufMem hwf .src
  refine ⟨_, step_idle hidle hhost, fun i hi => bufByte_memWrite_in hmem off hi, fun j hj => ?_, fun a ha => ?_,
    fun hb => ?_, fun hb => ?_, fun hb => ?_, fun hd hb j => ?_, fun hd hb j => ?_, ?_⟩
  · rw [applyMove, bufByte_memWrite_out hmem hj]
    cases b <;> rfl
  · rw [applyMove, read_bufMem_memWrite hmem (by cases b <;> exact ha)]
    cases b <;> rfl
  · exact key_memWrite hb off bytes { s with host := rest }
  · exact salt_memWrite hb off bytes { s with host := rest }
  · rcases hb with rfl | rfl <;> rfl
  · subst hb
    exact dstByte_memWrite_src (s := { s with host := rest }) hdata hd off j bytes
  · subst hb
    exact srcByte_memWrite_dst (s := { s with host := rest }) hdata hd off j bytes
  · cases b <;> rfl

end Sys2Proof.Proofs
end

section
/-! PROOF. Reset (10_state.md rule R21, 70_reset_and_hazards.md rules R200, R201). -/

namespace Sys2Proof.Proofs

open Sys2Proof.Machine

/-- Settles O13: the fields of `State.reset` as rule R21 lists them. -/
theorem resetStateHoldsTheGivenValues : Obligations.ResetStateHoldsTheGivenValues := by
  unfold Obligations.ResetStateHoldsTheGivenValues
  decide

/-- Byte writes to the places of `addr` leave every other place alone. -/
theorem read_memPatch_other {addr : Nat → Nat} {m : Memory} (hwf : m.wf = true) {a : Nat} (ha : ∀ i, a ≠ addr i)
    (ws : List Host.Cell) : (memPatch addr m ws).read a = m.read a := by
  induction ws generalizing m with
  | nil => rfl
  | cons w ws ih =>
    have hrest := ih (Memory.wf_write hwf (addr w.1) w.2)
    exact hrest.trans ((Memory.read_write hwf ..).trans (if_neg (ha w.1).symm))

/-- A reset of an idle core leaves the data storage alone. -/
theorem dataAfterReset_idle {s : State} (hidle : s.cmd = none) : dataAfterReset s = s.data := by
  simp [dataAfterReset, hidle]

/-- Any reset leaves the places outside `DST` alone. -/
theorem read_dataAfterReset {s : State} (hwf : s.data.wf = true) {a : Nat} (ha : ∀ i, a ≠ s.wiring.dstAddr i) :
    (dataAfterReset s).read a = s.data.read a := by
  unfold dataAfterReset
  split
  · rfl
  · exact read_memPatch_other hwf ha _

/-- Settles O14: the step is `takeReset`, whose registers are those of `State.reset`. -/
theorem resetGivesTheResetValues : Obligations.ResetGivesTheResetValues := by
  intro s rest hhost
  refine ⟨_, step_reset hhost, ?_⟩
  simp only [takeReset_fsm, takeReset_status, takeReset_errinfo, takeReset_outlen, takeReset_result, takeReset_keylen,
    takeReset_saltlen, takeReset_srclen, takeReset_dstlen, takeReset_cmd, takeReset_key, takeReset_salt,
    takeReset_wiring, takeReset_host, takeReset_rng, takeReset_data, true_and]
  exact ⟨fun hidle => dataAfterReset_idle (s := { s with host := rest }) hidle,
    fun hwf _ ha => read_dataAfterReset (s := { s with host := rest }) hwf ha⟩

end Sys2Proof.Proofs
end

section
/-! PROOF. The block transforms undo each other (40_round_transform.md rules R85, R86). -/

namespace Sys2Proof.Proofs

open Sys2Proof.Machine

/-- EncryptWords hands its rounds' result on swapped and whitened; DecryptWords takes the whitening off and runs the
inverse rounds on the swapped pair. -/
theorem decryptWords_encryptWords (t : Tables) (w : Word × Word) : decryptWords t (encryptWords t w) = w := by
  have hrounds := foldl_decRound_encRound t roundNumbers (w.1 ^^^ t.P[0], w.2)
  simp only [Prod.swap] at hrounds
  simp only [decryptWords, encryptWords, xor_cancel_right, hrounds]

theorem encryptWords_decryptWords (t : Tables) (w : Word × Word) : encryptWords t (decryptWords t w) = w := by
  have hrounds := foldl_encRound_decRound t roundNumbers (w.1 ^^^ t.P[17], w.2)
  simp only [Prod.swap] at hrounds
  simp only [decryptWords, encryptWords, xor_cancel_right, hrounds]

/-- Settles O18: `decryptWords_encryptWords` and its mirror image. -/
theorem blockTransformsAreMutuallyInverse : Obligations.BlockTransformsAreMutuallyInverse :=
  fun t w => ⟨decryptWords_encryptWords t w, encryptWords_decryptWords t w⟩

@[simp] theorem decryptBlock_encryptBlock (t : Tables) (b : Block) : decryptBlock t (encryptBlock t b) = b := by
  rw [decryptBlock, encryptBlock, blockWords_wordsBlock, decryptWords_encryptWords, wordsBlock_blockWords]

@[simp] theorem encryptBlock_decryptBlock (t : Tables) (b : Block) : encryptBlock t (decryptBlock t b) = b := by
  rw [decryptBlock, encryptBlock, blockWords_wordsBlock, encryptWords_decryptWords, wordsBlock_blockWords]

/-- Settles O20: DecryptBlock is a left and a right inverse. -/
theorem encryptBlockIsBijective : Obligations.EncryptBlockIsBijective := fun t =>
  ⟨⟨Function.LeftInverse.injective (decryptBlock_encryptBlock t),
    Function.RightInverse.surjective (encryptBlock_decryptBlock t)⟩, decryptBlock_encryptBlock t⟩

end Sys2Proof.Proofs
end

section
/-! PROOF. What the key schedules read of their operands (20_memory.md rule R43, 41_key_schedule.md rules R102, R106,
R109). -/

namespace Sys2Proof.Proofs

open Sys2Proof.Machine Sys2Proof.Claims

/-! ## An expansion as a chain over its input words -/

/-- The chain of an expansion that XORs the word pairs `mix 0, mix 1, …` into its in-flight block: the tables and the
block after `m` encryptions (41_key_schedule.md rules R104, R106). -/
def expandChain (mix : Nat → Word × Word) (t : Tables) : Nat → Tables × (Word × Word)
  | 0 => (t, (0, 0))
  | m + 1 =>
    let x := expandChain mix t m
    let w := encryptWords x.1 (x.2.1 ^^^ (mix m).1, x.2.2 ^^^ (mix m).2)
    (storePair m w x.1, w)

/-- The chain reads no input words but those before it. -/
theorem expandChain_congr {mix mix' : Nat → Word × Word} (t : Tables) {n : Nat} (h : ∀ m < n, mix m = mix' m) :
    expandChain mix t n = expandChain mix' t n := by
  induction n with
  | zero => rfl
  | succ n ih => simp only [expandChain, ih fun m hm => h m (by omega), h n (by omega)]

/-- The two salt words of encryption `m` (rule R106). -/
def saltWords (salt : Memory) (n m : Nat) : Word × Word := (circularWord salt n (2 * m), circularWord salt n (2 * m + 1))

theorem plainExpand_eq_chain (t : Tables) : plainExpand t = (expandChain (fun _ => (0, 0)) t 521).1 :=
  plainExpandChainsItsEncryptions t (fun m => (expandChain (fun _ => (0, 0)) t m).1)
    (fun m => (expandChain (fun _ => (0, 0)) t m).2) rfl rfl fun m _ => by simp [expandChain]

theorem saltedExpand_eq_chain {salt : Memory} {n : Nat} (hn : 1 ≤ n) (t : Tables) :
    saltedExpand salt n t = (expandChain (saltWords salt n) t 521).1 :=
  saltedExpandFoldsTheSaltInWithoutRestart salt n t (fun m => (expandChain _ t m).1) (fun m => (expandChain _ t m).2) hn
    rfl rfl fun _ _ => ⟨rfl, rfl⟩

/-! ## A zero salt -/

theorem circularWord_zero {buf : Memory} {n : Nat} (hn : 1 ≤ n) (h : ∀ i < n, buf.read i = 0) (q : Nat) :
    circularWord buf n q = 0 := by
  have hread (i : Nat) : buf.read (i % n) = 0 := h _ (Nat.mod_lt _ hn)
  rw [circularWord, hread, hread, hread, hread]
  rfl

/-- Settles O25: the words of a zero salt are zero, so the salted chain is the plain one. -/
theorem zeroSaltExpandsAsThePlainSchedule : Obligations.ZeroSaltExpandsAsThePlainSchedule := by
  intro salt n t hn hzero
  rw [saltedExpand_eq_chain hn, plainExpand_eq_chain]
  exact congrArg Prod.fst (expandChain_congr t fun m _ => by simp [saltWords, circularWord_zero hn hzero])

/-! ## The circular streams -/

/-- The byte streams of two buffers, each read circularly, agree in their first `k` bytes (20_memory.md rule R43). -/
def SameStream (buf buf' : Memory) (n n' k : Nat) : Prop := ∀ t < k, buf.read (t % n) = buf'.read (t % n')

theorem SameStream.circularWord_eq {buf buf' : Memory} {n n' k q : Nat} (h : SameStream buf buf' n n' k)
    (hq : 4 * q + 3 < k) : circularWord buf n q = circularWord buf' n' q := by
  simp only [circularWord, h (4 * q) (by omega), h (4 * q + 1) (by omega), h (4 * q + 2) (by omega), h (4 * q + 3) hq]

/-- Two buffers of the same length with the same bytes have the same stream. -/
theorem sameStream_of_bytes {buf buf' : Memory} {n : Nat} (hn : 1 ≤ n) (h : ∀ i < n, buf.read i = buf'.read i)
    (k : Nat) : SameStream buf buf' n n k :=
  fun _ _ => h _ (Nat.mod_lt _ hn)

/-- KeyXorPass reads the first 72 bytes of the key's stream. -/
theorem SameStream.keyXorPass_eq {key key' : Memory} {n n' : Nat} (h : SameStream key key' n n' 72) (t : Tables) :
    keyXorPass key n t = keyXorPass key' n' t := by
  rw [Proofs.keyXorPass_eq, Proofs.keyXorPass_eq]
  simp only [keyXorState, Tables.mk.injEq, and_true]
  refine congrArg Vector.ofFn (funext fun i => ?_)
  rw [h.circularWord_eq (q := i.val) (by omega)]

/-- SaltedExpand reads the first 4168 bytes of the salt's stream. -/
theorem SameStream.saltedExpand_eq {salt salt' : Memory} {n n' : Nat} (hn : 1 ≤ n) (hn' : 1 ≤ n')
    (h : SameStream salt salt' n n' 4168) (t : Tables) : saltedExpand salt n t = saltedExpand salt' n' t := by
  rw [saltedExpand_eq_chain hn, saltedExpand_eq_chain hn']
  refine congrArg Prod.fst (expandChain_congr t fun m hm => ?_)
  rw [saltWords, saltWords, h.circularWord_eq (q := 2 * m) (by omega), h.circularWord_eq (q := 2 * m + 1) (by omega)]

theorem SameStream.plainSchedule_eq {key key' : Memory} {n n' : Nat} (h : SameStream key key' n n' 72) :
    plainSchedule key n = plainSchedule key' n' :=
  congrArg plainExpand (h.keyXorPass_eq loadTables)

theorem SameStream.saltedSchedule_eq {key key' salt salt' : Memory} {n n' q q' : Nat} (hq : 1 ≤ q) (hq' : 1 ≤ q')
    (hkey : SameStream key key' n n' 72) (hsalt : SameStream salt salt' q q' 4168) :
    saltedSchedule key n salt q = saltedSchedule key' n' salt' q' := by
  rw [saltedSchedule, saltedSchedule, hkey.keyXorPass_eq, hsalt.saltedExpand_eq hq hq']

/-- Settles O26: `SameStream` for the key and for the salt. -/
theorem schedulesReadOnlyTheCircularStreams : Obligations.SchedulesReadOnlyTheCircularStreams :=
  fun _ _ _ _ _ _ _ _ _ _ hq hq' hkey hsalt =>
    ⟨SameStream.plainSchedule_eq hkey, SameStream.saltedSchedule_eq hq hq' hkey hsalt⟩

/-! ## A construction depends on its operands alone -/

/-- NEWC's own rule on equal operands: both build the same tables or both report the same length. -/
theorem newcBody_agree {s s' : State} (hlen : s.keylen = s'.keylen) (hkey : ∀ k < s.keylen, s.key.read k = s'.key.read k) :
    (∃ t, newcBody s = construct t s ∧ newcBody s' = construct t s') ∨
      ∃ n, newcBody s = raise .keySize n s ∧ newcBody s' = raise .keySize n s' := by
  rcases newcBody_cases s with ⟨hok, h⟩ | ⟨hbad, h⟩ <;> rcases newcBody_cases s' with ⟨hok', h'⟩ | ⟨hbad', h'⟩
  · have hsame := (sameStream_of_bytes hok.1 hkey 72).plainSchedule_eq
    exact .inl ⟨_, h, by rw [h', ← hlen, hsame]⟩
  · omega
  · omega
  · exact .inr ⟨_, h, by rw [h', hlen]⟩

/-- NEWSC's own rule on equal operands. -/
theorem newscBody_agree {s s' : State} (hlen : s.keylen = s'.keylen) (hsaltlen : s.saltlen = s'.saltlen)
    (hkey : ∀ k < s.keylen, s.key.read k = s'.key.read k) (hsalt : ∀ k < s.saltlen, s.salt.read k = s'.salt.read k) :
    (∃ t, newscBody s = construct t s ∧ newscBody s' = construct t s') ∨
      ∃ n, newscBody s = raise .keySize n s ∧ newscBody s' = raise .keySize n s' := by
  rcases newscBody_cases s with ⟨hempty, h⟩ | ⟨hne, hzero, h⟩ | ⟨hne, hpos, h⟩ <;>
    rcases newscBody_cases s' with ⟨hempty', h'⟩ | ⟨hne', hzero', h'⟩ | ⟨hne', hpos', h'⟩
  case inl.inl =>
    rw [h, h']
    exact newcBody_agree hlen hkey
  case inr.inl.inr.inl => exact .inr ⟨_, h, by rw [h', hlen]⟩
  case inr.inr.inr.inr =>
    have hsame := SameStream.saltedSchedule_eq (by omega) (by omega) (sameStream_of_bytes (by omega) hkey 72)
      (sameStream_of_bytes (by omega) hsalt 4168)
    exact .inl ⟨_, h, by rw [h', ← hlen, ← hsaltlen, hsame]⟩
  all_goals omega

/-- Settles O49: outside `Faulted` NEWC and NEWSC run their own rule, and the two runs end the same way. -/
theorem constructionForgetsThePreviousState : Obligations.ConstructionForgetsThePreviousState := by
  intro s s' t t' i hi hf hf' hlen hsaltlen hkey hsalt h h'
  have hneeds : commandNeedsKey i = false := by rcases hi with rfl | rfl <;> rfl
  have hagree : (∃ T, commandBody i s = construct T s ∧ commandBody i s' = construct T s') ∨
      ∃ n, commandBody i s = raise .keySize n s ∧ commandBody i s' = raise .keySize n s' := by
    rcases hi with rfl | rfl
    · exact newcBody_agree hlen hkey
    · exact newscBody_agree hlen hsaltlen hkey hsalt
  rw [exec_eq_commandBody hneeds hf] at h
  rw [exec_eq_commandBody hneeds hf'] at h'
  cases h
  cases h'
  rcases hagree with ⟨T, hs, hs'⟩ | ⟨n, hs, hs'⟩ <;> rw [hs, hs']
  · simp
  · simp [Err.status]

end Sys2Proof.Proofs
end

section
/-! PROOF. What a command reads from `SRC` and leaves in `DST` (20_memory.md rule R45), and the block commands
(42_cipher_commands.md rules R124, R125). -/

namespace Sys2Proof.Proofs

open Sys2Proof.Machine Sys2Proof.Claims

/-! ## The blocks of an indexed byte string -/

theorem getElem_blockOf (f : Nat → Byte) (off : Nat) {k : Nat} (hk : k < 8) : (blockOf f off)[k] = f (off + k) := by
  obtain rfl | rfl | rfl | rfl | rfl | rfl | rfl | rfl :
    k = 0 ∨ k = 1 ∨ k = 2 ∨ k = 3 ∨ k = 4 ∨ k = 5 ∨ k = 6 ∨ k = 7 := by omega
  all_goals rfl

theorem blockOf_eq_iff {f : Nat → Byte} {off : Nat} {b : Block} :
    blockOf f off = b ↔ ∀ k (hk : k < 8), f (off + k) = b[k] := by
  constructor
  · rintro rfl k hk
    exact (getElem_blockOf f off hk).symm
  · exact fun h => Vector.ext fun k hk => (getElem_blockOf f off hk).trans (h k hk)

theorem blockOf_congr {f g : Nat → Byte} {off off' : Nat} (h : ∀ k < 8, f (off + k) = g (off' + k)) :
    blockOf f off = blockOf g off' :=
  blockOf_eq_iff.mpr fun k hk => (h k hk).trans (getElem_blockOf g off' hk).symm

/-- Equal first blocks are equal first bytes. -/
theorem blockOf_zero_eq_iff {f g : Nat → Byte} : blockOf f 0 = blockOf g 0 ↔ ∀ k < 8, f k = g k := by
  simp only [blockOf_eq_iff, getElem_blockOf, Nat.zero_add]

/-- The blocks of a byte list are those of its bytes. -/
theorem blockAt_eq_blockOf (bs : List Byte) (off : Nat) : blockAt bs off = blockOf (byteAt bs) off := rfl

theorem byteAt_toList (b : Block) {k : Nat} (hk : k < 8) : byteAt b.toList k = b[k] := by
  simp [byteAt, hk]

theorem blockAt_toList (b : Block) : blockAt b.toList 0 = b :=
  blockOf_eq_iff.mpr fun k hk => by rw [Nat.zero_add, byteAt_toList b hk]

/-! ## SRC and DST -/

theorem byteAt_srcBytes (s : State) {i : Nat} (hi : i < s.srclen) : byteAt s.srcBytes i = s.srcByte i := by
  rw [State.srcBytes, State.byteAt_memRead _ _ hi, Nat.zero_add, State.bufByte_src]

theorem blockAt_srcBytes (s : State) {off : Nat} (hoff : off + 8 ≤ s.srclen) :
    blockAt s.srcBytes off = blockOf s.srcByte off :=
  blockOf_congr fun _ _ => byteAt_srcBytes s (by omega)

@[simp] theorem length_srcBytes (s : State) : s.srcBytes.length = s.srclen := State.length_memRead ..

theorem srcBlock_eq_blockOf (s : State) : s.srcBlock = blockOf s.srcByte 0 :=
  blockOf_congr fun k hk => by
    rw [Nat.zero_add, State.byteAt_memRead _ _ hk, Nat.zero_add, State.bufByte_src]

/-- The blocks of a result written to `DST`. -/
theorem blockOf_dstByte_memWrite {s : State} (hwf : s.data.wf = true) {bs : List Byte} {off : Nat}
    (hoff : off + 8 ≤ bs.length) : blockOf (s.memWrite .dst 0 bs).dstByte off = blockAt bs off :=
  blockOf_congr fun _ _ => State.dstByte_memWrite hwf (by omega)

/-- A result written to `DST` leaves every other place of the data storage alone. -/
theorem read_data_memWrite_dst {s : State} (hwf : s.data.wf = true) {bs : List Byte} {a : Nat}
    (ha : ∀ i < bs.length, a ≠ s.wiring.dstAddr i) : (s.memWrite .dst 0 bs).data.read a = s.data.read a :=
  read_memWriteAt_other hwf fun i hi => by rw [Nat.zero_add]; exact ha i hi

/-! ## ENCB and DECB -/

/-- The own rule of ENCB and DECB on two lengths of 8, `f` being the block transform. -/
theorem blockBody_of_lengths (f : Tables → Block → Block) {s : State} (hsrc : s.srclen = 8) (hdst : s.dstlen = 8) :
    blockBody f s = complete 8 (s.memWrite .dst 0 (f s.tab s.srcBlock).toList) := by
  rcases blockBody_cases f s with ⟨hne, _⟩ | ⟨_, hne, _⟩ | ⟨_, _, h⟩
  · exact absurd hsrc hne
  · exact absurd hdst hne
  · exact h

theorem blockOf_dstByte_blockBody (f : Tables → Block → Block) {s : State} (hsrc : s.srclen = 8) (hdst : s.dstlen = 8)
    (hwf : s.data.wf = true) : blockOf (blockBody f s).dstByte 0 = f s.tab (blockOf s.srcByte 0) := by
  rw [blockBody_of_lengths f hsrc hdst, ← srcBlock_eq_blockOf]
  exact (blockOf_dstByte_memWrite hwf (by simp)).trans (blockAt_toList _)

/-- What the own rule of ENCB and DECB does on two lengths of 8: the block, its frame in memory, the registers. -/
theorem blockBody_spec (f : Tables → Block → Block) {s : State} (hsrc : s.srclen = 8) (hdst : s.dstlen = 8)
    (hwf : s.data.wf = true) :
    blockOf (blockBody f s).dstByte 0 = f s.tab (blockOf s.srcByte 0) ∧
      (∀ a, (∀ i < 8, a ≠ s.wiring.dstAddr i) → (blockBody f s).data.read a = s.data.read a) ∧
      blockBody f s =
        { s with data := (blockBody f s).data, status := 0x00, errinfo := 0, outlen := 8, cmd := none } := by
  refine ⟨blockOf_dstByte_blockBody f hsrc hdst hwf, fun a ha => ?_, ?_⟩ <;> rw [blockBody_of_lengths f hsrc hdst]
  · exact read_data_memWrite_dst hwf (by simpa using ha)
  · rfl

/-- Settles O30: `blockBody_spec` for EncryptBlock. -/
theorem encbEncryptsOneBlock : Obligations.EncbEncryptsOneBlock :=
  fun _ hkeyed hsrc hdst hwf => ⟨_, inFrame_keyed hkeyed, blockBody_spec encryptBlock hsrc hdst hwf⟩

/-- Settles O31: `blockBody_spec` for DecryptBlock. -/
theorem decbDecryptsOneBlock : Obligations.DecbDecryptsOneBlock :=
  fun _ hkeyed hsrc hdst hwf => ⟨_, inFrame_keyed hkeyed, blockBody_spec decryptBlock hsrc hdst hwf⟩

/-- The breach of the buffer contract, `SRCLEN` checked first (60_exceptions.md rule R177). -/
theorem blockBody_of_wrong_length (f : Tables → Block → Block) (s : State) :
    (s.srclen ≠ 8 → blockBody f s = raiseFatal .bufferContract s.srclen s) ∧
      (s.srclen = 8 → s.dstlen ≠ 8 → blockBody f s = raiseFatal .bufferContract s.dstlen s) := by
  rcases blockBody_cases f s with ⟨hsrc, h⟩ | ⟨hsrc, _, h⟩ | ⟨hsrc, hdst, _⟩
  · exact ⟨fun _ => h, fun hsrc' => absurd hsrc' hsrc⟩
  · exact ⟨fun hsrc' => absurd hsrc hsrc', fun _ _ => h⟩
  · exact ⟨fun hsrc' => absurd hsrc hsrc', fun _ hdst' => absurd hdst hdst'⟩

/-- Settles O32. -/
theorem wrongBlockLengthIsFatal : Obligations.WrongBlockLengthIsFatal := by
  intro s i hkeyed hi
  have hexec (f : Tables → Block → Block) {n : Nat} (h : blockBody f s = raiseFatal .bufferContract n s) :
      inFrame true (blockBody f) s =
        .next { s with status := 0x81, errinfo := n, outlen := 0, fsm := .faulted, cmd := none } :=
    (inFrame_keyed hkeyed).trans (congrArg _ h)
  rcases hi with rfl | rfl
  · obtain ⟨hsrc, hdst⟩ := blockBody_of_wrong_length encryptBlock s
    exact ⟨fun h => hexec _ (hsrc h), fun h h' => hexec _ (hdst h h')⟩
  · obtain ⟨hsrc, hdst⟩ := blockBody_of_wrong_length decryptBlock s
    exact ⟨fun h => hexec _ (hsrc h), fun h h' => hexec _ (hdst h h')⟩

/-- A block transform at `u` undoes another at `s` when it is its inverse and `SRC` holds what the other left. -/
theorem blockBody_undoes {f g : Tables → Block → Block} {s u : State} (hinv : ∀ b, g s.tab (f s.tab b) = b)
    (htab : u.tab = s.tab) (hsrc : s.srclen = 8) (hdst : s.dstlen = 8) (hwf : s.data.wf = true) (husrc : u.srclen = 8)
    (hudst : u.dstlen = 8) (huwf : u.data.wf = true) (hcarried : ∀ k < 8, u.srcByte k = (blockBody f s).dstByte k) :
    ∀ k < 8, (blockBody g u).dstByte k = s.srcByte k := by
  have hu : blockOf u.srcByte 0 = f s.tab (blockOf s.srcByte 0) :=
    (blockOf_zero_eq_iff.mpr hcarried).trans (blockOf_dstByte_blockBody f hsrc hdst hwf)
  have hv : blockOf (blockBody g u).dstByte 0 = blockOf s.srcByte 0 := by
    rw [blockOf_dstByte_blockBody g husrc hudst huwf, htab, hu, hinv]
  exact blockOf_zero_eq_iff.mp hv

/-- Settles O33: `blockBody_undoes` in both directions. -/
theorem decbAndEncbUndoEachOther : Obligations.DecbAndEncbUndoEachOther := by
  intro s u i j hij hkeyed hsrc hdst hwf hukeyed husrc hudst huwf htab
  rcases hij with ⟨rfl, rfl⟩ | ⟨rfl, rfl⟩
  · exact ⟨_, inFrame_keyed hkeyed, fun hcarried => ⟨_, inFrame_keyed hukeyed,
      blockBody_undoes (decryptBlock_encryptBlock s.tab) htab hsrc hdst hwf husrc hudst huwf hcarried⟩⟩
  · exact ⟨_, inFrame_keyed hkeyed, fun hcarried => ⟨_, inFrame_keyed hukeyed,
      blockBody_undoes (encryptBlock_decryptBlock s.tab) htab hsrc hdst hwf husrc hudst huwf hcarried⟩⟩

end Sys2Proof.Proofs
end

section
/-! PROOF. ENCCBC and DECCBC block by block, and the round trip (43_cbc.md rules R141 to R167). -/

namespace Sys2Proof.Proofs

open Sys2Proof.Machine Sys2Proof.Claims

/-! ## The chaining loop of ENCCBC -/

theorem blockAt_encLoop_below (t : Tables) {k off off' : Nat} {buf : List Byte} (hlen : off + 8 * k ≤ buf.length)
    (hoff : off' + 8 ≤ off) : blockAt (encLoop t k off buf) off' = blockAt buf off' :=
  blockAt_congr fun _ _ => byteAt_encLoop_below t k off buf hlen (by omega)

/-- Block `m` of the loop's result is block `m` of the work buffer XORed with the result's block before it and encrypted
(rule R155). -/
theorem blockAt_encLoop (t : Tables) {k off m : Nat} {buf : List Byte} (hoff : 8 ≤ off)
    (hlen : off + 8 * k ≤ buf.length) (hm : m < k) :
    blockAt (encLoop t k off buf) (off + 8 * m) =
      encryptBlock t (xorBlock (blockAt buf (off + 8 * m)) (blockAt (encLoop t k off buf) (off + 8 * m - 8))) := by
  induction k generalizing off m buf with
  | zero => omega
  | succ k ih =>
    have hput : off + 8 ≤ buf.length := by omega
    simp only [encLoop]
    generalize hb : encryptBlock t (xorBlock (blockAt buf off) (blockAt buf (off - 8))) = b
    have hlen' : off + 8 + 8 * k ≤ (putBlock buf off b).length := by rw [length_putBlock hput]; omega
    cases m with
    | zero =>
      simp only [Nat.mul_zero, Nat.add_zero]
      rw [blockAt_encLoop_below t hlen' (by omega), blockAt_encLoop_below t hlen' (by omega),
        blockAt_putBlock_same hput, blockAt_putBlock_other hput b (by omega), hb]
    | succ m =>
      have hnext := ih (by omega) hlen' (Nat.lt_of_succ_lt_succ hm)
      rw [blockAt_putBlock_other hput b (by omega)] at hnext
      rw [show off + 8 * (m + 1) = off + 8 + 8 * m by omega, hnext]

/-! ## The work buffer of ENCCBC -/

theorem byteAt_append_left {xs : List Byte} (ys : List Byte) {i : Nat} (hi : i < xs.length) :
    byteAt (xs ++ ys) i = byteAt xs i := by
  simp [byteAt, List.getElem?_append_left hi]

theorem byteAt_append_right {xs : List Byte} (ys : List Byte) {i : Nat} (hi : xs.length ≤ i) :
    byteAt (xs ++ ys) i = byteAt ys (i - xs.length) := by
  simp [byteAt, List.getElem?_append_right hi]

theorem byteAt_replicate {n i : Nat} (b : Byte) (hi : i < n) : byteAt (List.replicate n b) i = b := by
  simp [byteAt, hi]

/-- The work buffer begins with the IV. -/
theorem blockAt_buildBuf_zero (iv : Block) (src : List Byte) : blockAt (buildBuf iv src) 0 = iv :=
  blockOf_eq_iff.mpr fun k hk => by
    rw [Nat.zero_add, buildBuf, byteAt_append_left _ (by simp; omega), byteAt_append_left _ (by simpa using hk),
      byteAt_toList iv hk]

/-- The pad byte by the plaintext it follows (rule R141). -/
theorem padByte_eq (s : State) (iv : Block) :
    padByte (iv.toList ++ s.srcBytes) s.srclen =
      if s.srclen = 0 then iv[7] ^^^ 0xCC else s.srcByte (s.srclen - 1) ^^^ 0xCC := by
  rw [padByte, Config.padXor]
  split
  case isTrue hempty =>
    rw [hempty, byteAt_append_left _ (by simp), byteAt_toList iv (by omega)]
  case isFalse hne =>
    rw [byteAt_append_right _ (by simp; omega), Vector.length_toList,
      show 7 + s.srclen - 8 = s.srclen - 1 by omega, byteAt_srcBytes s (by omega)]

/-- After the IV come the bytes of the padded plaintext (rules R141 to R143). -/
theorem byteAt_buildBuf (s : State) (iv : Block) {j : Nat} (hj : j < 8 * (s.srclen / 8 + 1)) :
    byteAt (buildBuf iv s.srcBytes) (8 + j) = paddedByte s iv j := by
  simp only [buildBuf, length_srcBytes, paddedByte, ← padByte_eq]
  split
  case isTrue hdata =>
    rw [byteAt_append_left _ (by simpa using hdata), byteAt_append_right _ (by simp), Vector.length_toList,
      Nat.add_sub_cancel_left, byteAt_srcBytes s hdata]
  case isFalse hpad =>
    rw [byteAt_append_right _ (by simp; omega), byteAt_replicate _ (by simp [padCount]; omega)]

/-! ## ENCCBC -/

/-- ENCCBC's result begins with the IV. -/
theorem blockAt_cbcEncrypt_zero (t : Tables) (iv : Block) (src : List Byte) : blockAt (cbcEncrypt t iv src) 0 = iv := by
  rw [cbcEncrypt, blockAt_encLoop_below t (by rw [length_buildBuf]) (by omega), blockAt_buildBuf_zero]

/-- The later blocks of ENCCBC's result: the chained encryption of the padded plaintext. -/
theorem blockAt_cbcEncrypt_succ (s : State) (iv : Block) {m : Nat} (hm : m ≤ s.srclen / 8) :
    blockAt (cbcEncrypt s.tab iv s.srcBytes) (8 * m + 8) =
      encryptBlock s.tab
        (xorBlock (blockOf (paddedByte s iv) (8 * m)) (blockAt (cbcEncrypt s.tab iv s.srcBytes) (8 * m))) := by
  have hpadded : blockAt (buildBuf iv s.srcBytes) (8 + 8 * m) = blockOf (paddedByte s iv) (8 * m) :=
    blockOf_congr fun k hk => by rw [Nat.add_assoc, byteAt_buildBuf s iv (by omega)]
  have hchain := blockAt_encLoop s.tab (k := s.srcBytes.length / 8 + 1) (m := m) (buf := buildBuf iv s.srcBytes)
    (Nat.le_refl 8) (by rw [length_buildBuf]) (by rw [length_srcBytes]; omega)
  rw [hpadded, Nat.add_sub_cancel_left] at hchain
  rw [Nat.add_comm, cbcEncrypt, hchain]

theorem good_eq_true {a : RngAnswer} (hn : a.n.val = 8) (hfail : a.fail = false) : a.good = true := by
  simp [RngAnswer.good, hn, hfail]

/-- ENCCBC's own rule on an answer that serves. -/
theorem enccbcBody_of_good {s : State} {a : RngAnswer} {rest : List RngAnswer} (hrng : s.rng = a :: rest)
    (hgood : a.good = true) :
    enccbcBody s = complete (cbcEncrypt s.tab a.bytes s.srcBytes).length
      ({ s with rng := rest, iv := a.bytes }.memWrite .dst 0 (cbcEncrypt s.tab a.bytes s.srcBytes)) := by
  rcases enccbcBody_cases s with ⟨hnone, _⟩ | ⟨b, rest', hcons, hanswered⟩
  case inl => simp [hrng] at hnone
  case inr =>
    obtain ⟨rfl, rfl⟩ := List.cons.inj (hrng.symm.trans hcons)
    rcases hanswered with ⟨hbad, _⟩ | ⟨_, h⟩
    · simp [hgood] at hbad
    · exact h

/-- Settles O34: the blocks of DST are those of `cbcEncrypt`. -/
theorem enccbcChainsThePaddedPlaintext : Obligations.EnccbcChainsThePaddedPlaintext := by
  intro s a rest hkeyed hwf hrng hn hfail
  refine ⟨_, (inFrame_keyed hkeyed).trans (congrArg _ (enccbcBody_of_good hrng (good_eq_true hn hfail))), ?_⟩
  have hlen : (cbcEncrypt s.tab a.bytes s.srcBytes).length = 8 + 8 * (s.srclen / 8 + 1) := by
    rw [length_cbcEncrypt, length_srcBytes]
  have hblock {off : Nat} (hoff : off + 8 ≤ 8 + 8 * (s.srclen / 8 + 1)) :=
    blockOf_dstByte_memWrite (s := { s with rng := rest, iv := a.bytes }) hwf (hoff.trans_eq hlen.symm)
  refine ⟨(hblock (by omega)).trans (blockAt_cbcEncrypt_zero ..), fun m hm => ?_, fun b hb => ?_, ?_⟩
  · exact (hblock (by omega)).trans ((blockAt_cbcEncrypt_succ s a.bytes hm).trans
      (congrArg (fun c => encryptBlock s.tab (xorBlock _ c)) (hblock (by omega)).symm))
  · exact read_data_memWrite_dst (s := { s with rng := rest, iv := a.bytes }) hwf (by rw [hlen]; exact hb)
  · rw [hlen]
    rfl

/-! ## The block loop of DECCBC -/

theorem blockAt_decLoop_below (t : Tables) {k off off' : Nat} {chain : Block} {buf : List Byte}
    (hlen : off + 8 * k ≤ buf.length) (hoff : off' + 8 ≤ off) :
    blockAt (decLoop t k off chain buf) off' = blockAt buf off' :=
  blockAt_congr fun _ _ => byteAt_decLoop_below t k off chain buf hlen (by omega)

/-- Block `m` of the loop's result is block `m` of the ciphertext `src` decrypted and XORed with the ciphertext block
before it (rule R162): the loop may start in any buffer that still holds `src` from its offset on. -/
theorem blockAt_decLoop (t : Tables) (src : List Byte) {k off m : Nat} {buf : List Byte} (hoff : 8 ≤ off)
    (hlen : off + 8 * k ≤ buf.length) (hbuf : ∀ i, off ≤ i → byteAt buf i = byteAt src i) (hm : m < k) :
    blockAt (decLoop t k off (blockAt src (off - 8)) buf) (off + 8 * m) =
      xorBlock (decryptBlock t (blockAt src (off + 8 * m))) (blockAt src (off + 8 * m - 8)) := by
  induction k generalizing off m buf with
  | zero => omega
  | succ k ih =>
    have hput : off + 8 ≤ buf.length := by omega
    have hsaved : blockAt buf off = blockAt src off := blockAt_congr fun i _ => hbuf (off + i) (by omega)
    simp only [decLoop, hsaved]
    generalize hb : xorBlock (decryptBlock t (blockAt src off)) (blockAt src (off - 8)) = b
    have hlen' : off + 8 + 8 * k ≤ (putBlock buf off b).length := by rw [length_putBlock hput]; omega
    cases m with
    | zero =>
      simp only [Nat.mul_zero, Nat.add_zero]
      rw [blockAt_decLoop_below t hlen' (by omega), blockAt_putBlock_same hput, hb]
    | succ m =>
      have hbuf' : ∀ i, off + 8 ≤ i → byteAt (putBlock buf off b) i = byteAt src i := fun i hi => by
        rw [byteAt_putBlock_out hput b (.inr hi), hbuf i (by omega)]
      have hnext := ih (by omega) hlen' hbuf' (Nat.lt_of_succ_lt_succ hm)
      rw [Nat.add_sub_cancel] at hnext
      rw [show off + 8 * (m + 1) = off + 8 + 8 * m by omega, hnext]

/-- The work buffer of DECCBC after the loop, block by block from offset 8 on (rules R161, R162). -/
theorem blockAt_cbcDecryptBuf (s : State) {m : Nat} (hm : 8 * m + 16 ≤ s.srclen) :
    blockAt (cbcDecryptBuf s.tab s.srcBytes) (8 * m + 8) =
      xorBlock (decryptBlock s.tab (blockOf s.srcByte (8 * m + 8))) (blockOf s.srcByte (8 * m)) := by
  have hloop := blockAt_decLoop s.tab s.srcBytes (k := s.srcBytes.length / 8 - 1) (m := m) (buf := s.srcBytes)
    (Nat.le_refl 8) (by rw [length_srcBytes]; omega) (fun _ _ => rfl) (by rw [length_srcBytes]; omega)
  rw [Nat.add_sub_cancel_left, Nat.add_comm 8, blockAt_srcBytes s (off := 8 * m + 8) (by omega),
    blockAt_srcBytes s (off := 8 * m) (by omega)] at hloop
  exact hloop

/-- The decrypted data stand there from offset 8 on. -/
theorem byteAt_cbcDecryptBuf (s : State) (hmod : s.srclen % 8 = 0) {j : Nat} (hj : j < s.srclen - 8) :
    byteAt (cbcDecryptBuf s.tab s.srcBytes) (8 + j) = recoveredByte s j := by
  have hbyte : 8 + j = 8 * (j / 8) + 8 + j % 8 := by omega
  rw [hbyte, ← getElem_blockAt _ _ (Nat.mod_lt j (by omega))]
  simp only [blockAt_cbcDecryptBuf s (m := j / 8) (by omega), recoveredByte]

theorem length_cbcDecryptBuf (t : Tables) {src : List Byte} (hlen : 8 ≤ src.length) :
    (cbcDecryptBuf t src).length = src.length :=
  length_decLoop _ _ _ _ _ (by omega)

/-! ## DECCBC -/

/-- What `Unpad` finds (rule R144): an end offset below the buffer's last byte, since that byte is one of the run, from
which on every byte is the last one, and before which stands another. -/
theorem unpad_spec (buf : List Byte) {len : Nat} (hlen : 16 ≤ len) :
    8 ≤ unpad buf len ∧ unpad buf len < len ∧
      (∀ i, unpad buf len ≤ i → i < len → byteAt buf i = byteAt buf (len - 1)) ∧
      (8 < unpad buf len → byteAt buf (unpad buf len - 1) ≠ byteAt buf (len - 1)) := by
  have hscan := unpadScan_spec buf (byteAt buf (len - 1)) len (by omega)
  rw [← unpad] at hscan
  obtain ⟨hmin, hmax, hrun, hstop⟩ := hscan
  refine ⟨hmin, Nat.lt_of_le_of_ne hmax fun heq => ?_, hrun, hstop⟩
  have hlast := hstop (by rw [heq]; omega)
  rw [heq] at hlast
  exact hlast rfl

/-- DECCBC's result is the work buffer from offset 8 to the end offset (rule R165). -/
theorem length_cbcDecrypt (t : Tables) {src : List Byte} (hlen : 16 ≤ src.length) :
    (cbcDecrypt t src).length = unpad (cbcDecryptBuf t src) src.length - 8 := by
  have hend := (unpad_spec (cbcDecryptBuf t src) hlen).2.1
  simp only [cbcDecrypt, List.length_drop, List.length_take, length_cbcDecryptBuf t (by omega : 8 ≤ src.length)]
  omega

theorem byteAt_cbcDecrypt (t : Tables) {src : List Byte} {i : Nat}
    (hi : i < unpad (cbcDecryptBuf t src) src.length - 8) :
    byteAt (cbcDecrypt t src) i = byteAt (cbcDecryptBuf t src) (8 + i) := by
  simp only [byteAt, cbcDecrypt, List.getD_eq_getElem?_getD, List.getElem?_drop]
  rw [List.getElem?_take_of_lt (by omega)]

/-- DECCBC's own rule on a legal length. -/
theorem deccbcBody_of_length {s : State} (hmod : s.srclen % 8 = 0) (hmin : 16 ≤ s.srclen) :
    deccbcBody s = complete (cbcDecrypt s.tab s.srcBytes).length
      ({ s with iv := blockAt s.srcBytes 0 }.memWrite .dst 0 (cbcDecrypt s.tab s.srcBytes)) := by
  rcases deccbcBody_cases s with ⟨hbad, _⟩ | ⟨_, _, h⟩
  · omega
  · exact h

/-- Settles O37: OUTLEN is the end offset less 8, and the data are the work buffer's bytes from 8 on. -/
theorem deccbcStripsTheTrailingRun : Obligations.DeccbcStripsTheTrailingRun := by
  intro s hkeyed hwf hmod hmin
  refine ⟨_, (inFrame_keyed hkeyed).trans (congrArg _ (deccbcBody_of_length hmod hmin)), ?_⟩
  obtain ⟨hlow, hend, hrun, hstop⟩ := unpad_spec (cbcDecryptBuf s.tab s.srcBytes) hmin
  have hlen : (cbcDecrypt s.tab s.srcBytes).length = unpad (cbcDecryptBuf s.tab s.srcBytes) s.srclen - 8 := by
    rw [length_cbcDecrypt _ (by simpa using hmin), length_srcBytes]
  have hdata {j : Nat} (hj : j < s.srclen - 8) := byteAt_cbcDecryptBuf s hmod hj
  have hlast : byteAt (cbcDecryptBuf s.tab s.srcBytes) (s.srclen - 1) = recoveredByte s (s.srclen - 9) := by
    rw [← hdata (by omega)]
    congr 1
    omega
  rw [complete_outlen, hlen]
  generalize hout : unpad (cbcDecryptBuf s.tab s.srcBytes) s.srclen = e at *
  refine ⟨by omega, fun j hj hj' => ?_, fun hpos => ?_, fun i hi => ?_, fun b hb => ?_, ?_⟩
  · rw [← hdata hj', ← hlast]
    exact hrun _ (by omega) (by omega)
  · rw [← hdata (by omega), ← hlast, show 8 + (e - 8 - 1) = e - 1 by omega]
    exact hstop (by omega)
  · rw [← hdata (by omega), ← byteAt_cbcDecrypt s.tab (by rw [length_srcBytes, hout]; exact hi)]
    exact State.dstByte_memWrite (s := { s with iv := blockAt s.srcBytes 0 }) hwf (by rw [hlen]; exact hi)
  · exact read_data_memWrite_dst (s := { s with iv := blockAt s.srcBytes 0 }) hwf (by rw [hlen]; exact hb)
  · rw [← blockAt_srcBytes s (by omega)]
    rfl

/-! ## The round trip -/

/-- A state whose `SRC` holds a chained encryption of the bytes `p` recovers them. -/
theorem recoveredByte_of_chained {u : State} {c p : Nat → Byte} {n : Nat} (hsrc : ∀ i < 8 * n + 8, u.srcByte i = c i)
    (hchain : ∀ m < n, blockOf c (8 * m + 8) =
      encryptBlock u.tab (xorBlock (blockOf p (8 * m)) (blockOf c (8 * m)))) {j : Nat} (hj : j < 8 * n) :
    recoveredByte u j = p j := by
  have hcopy {off : Nat} (hoff : off + 8 ≤ 8 * n + 8) : blockOf u.srcByte off = blockOf c off :=
    blockOf_congr fun k hk => hsrc _ (by omega)
  simp only [recoveredByte]
  rw [hcopy (by omega), hcopy (by omega)]
  simp only [hchain (j / 8) (by omega), decryptBlock_encryptBlock, xorBlock_xorBlock,
    getElem_blockOf p _ (Nat.mod_lt j (by omega : 0 < 8)), Nat.div_add_mod]

theorem paddedByte_data {s : State} (iv : Block) {j : Nat} (hj : j < s.srclen) : paddedByte s iv j = s.srcByte j :=
  if_pos hj

/-- All pad bytes are one byte. -/
theorem paddedByte_pad {s : State} (iv : Block) {i j : Nat} (hi : s.srclen ≤ i) (hj : s.srclen ≤ j) :
    paddedByte s iv i = paddedByte s iv j := by
  simp only [paddedByte, if_neg (Nat.not_lt.mpr hi), if_neg (Nat.not_lt.mpr hj)]

/-- The pad byte differs from the last plaintext byte (rule R145). -/
theorem paddedByte_pad_ne {s : State} (iv : Block) {j : Nat} (hpos : 0 < s.srclen) (hj : s.srclen ≤ j) :
    paddedByte s iv (s.srclen - 1) ≠ paddedByte s iv j := by
  rw [paddedByte_data iv (by omega), paddedByte, if_neg (by omega), if_neg (by omega)]
  intro heq
  have hzero := congrArg (s.srcByte (s.srclen - 1) ^^^ ·) heq
  simp only [BitVec.xor_self, ← BitVec.xor_assoc, BitVec.zero_xor] at hzero
  exact absurd hzero (by decide)

/-- Settles O39: DECCBC recovers the padded plaintext of ENCCBC (O34), and the run it strips (O37) is the padding. -/
theorem deccbcUndoesEnccbc : Obligations.DeccbcUndoesEnccbc := by
  intro s a rest hkeyed hwf hrng hn hfail
  obtain ⟨t, ht, _, hchain, _, hregs⟩ := enccbcChainsThePaddedPlaintext s a rest hkeyed hwf hrng hn hfail
  refine ⟨t, ht, fun u hukeyed huwf htab husrc hcarried => ?_⟩
  have houtlen : t.outlen = 8 * (s.srclen / 8 + 1) + 8 := by rw [hregs]; exact Nat.add_comm ..
  rw [houtlen] at husrc hcarried
  obtain ⟨v, hv, hmax, hrun, hstop, hdst, _, hvregs⟩ :=
    deccbcStripsTheTrailingRun u hukeyed huwf (by omega) (by omega)
  have hrec {j : Nat} (hj : j < u.srclen - 8) : recoveredByte u j = paddedByte s a.bytes j :=
    recoveredByte_of_chained hcarried (fun m hm => htab ▸ hchain m (by omega)) (by omega)
  have hle : v.outlen ≤ s.srclen := by
    by_contra hgt
    refine hstop (by omega) ?_
    rw [hrec (by omega), hrec (by omega)]
    exact paddedByte_pad _ (by omega) (by omega)
  have hge : s.srclen ≤ v.outlen := by
    by_contra hlt
    have hsame := hrun (s.srclen - 1) (by omega) (by omega)
    rw [hrec (by omega), hrec (by omega)] at hsame
    exact paddedByte_pad_ne _ (by omega) (by omega) hsame
  refine ⟨v, hv, by rw [hvregs], Nat.le_antisymm hle hge, fun i hi => ?_⟩
  rw [hdst i (by omega), hrec (by omega), paddedByte_data _ hi]

end Sys2Proof.Proofs
end

section
/-! PROOF. What every step keeps of the registers and the buffers (60_exceptions.md rules R170, R171). -/

namespace Sys2Proof.Proofs

open Sys2Proof.Machine Sys2Proof.Safety

/-! ## The buffers -/

theorem storagesWf_iff (s : State) :
    storagesWf s = true ↔ s.key.wf = true ∧ s.salt.wf = true ∧ s.data.wf = true := by
  simp only [storagesWf, Bool.and_eq_true, and_assoc]

theorem storagesWf_memWrite_dst {s : State} (hwf : storagesWf s = true) (off : Nat) (bs : List Byte) :
    storagesWf (s.memWrite .dst off bs) = true := by
  obtain ⟨hkey, hsalt, hdata⟩ := (storagesWf_iff s).mp hwf
  exact (storagesWf_iff _).mpr ⟨hkey, hsalt, wf_memWriteAt hdata off bs⟩

theorem wf_dataAfterReset {s : State} (hdata : s.data.wf = true) : (dataAfterReset s).wf = true := by
  unfold dataAfterReset
  split
  · exact hdata
  · exact wf_memPatch hdata _

/-! ## The invariant after each way a command ends -/

/-- The part of the invariant that no command but BLKSZ touches (42_cipher_commands.md rule R123). -/
def ResultOk (s : State) : Prop := s.result = 0 ∨ s.result = 8

theorem inv_iff (s : State) : inv s = true ↔ storagesWf s = true ∧ registersOk s = true := by
  simp only [inv, Bool.and_eq_true]

theorem resultOk_of_inv {s : State} (hinv : inv s = true) : ResultOk s := by
  simp only [inv, registersOk, Bool.and_eq_true, Bool.or_eq_true, beq_iff_eq] at hinv
  exact hinv.2.2

/-- The invariant reads nothing but the buffers and five registers. -/
theorem inv_of_same_registers {s t : State} (hinv : inv s = true) (hfsm : t.fsm = s.fsm) (hstatus : t.status = s.status)
    (herrinfo : t.errinfo = s.errinfo) (houtlen : t.outlen = s.outlen) (hresult : t.result = s.result)
    (hwf : storagesWf t = true) : inv t = true := by
  obtain ⟨_, hregs⟩ := (inv_iff s).mp hinv
  refine (inv_iff t).mpr ⟨hwf, ?_⟩
  rw [registersOk, hfsm, hstatus, herrinfo, houtlen, hresult]
  exact hregs

theorem inv_complete {n : Nat} {s : State} (hwf : storagesWf s = true) (hf : s.fsm ≠ .faulted)
    (hres : ResultOk s) : inv (complete n s) = true := by
  exact (inv_iff _).mpr ⟨hwf, by simpa [registersOk, hf, statusOk, statusLegal, statusFatal, ResultOk] using hres⟩

theorem inv_raise {e : Err} {n : Nat} {s : State} (hwf : storagesWf s = true) (hf : s.fsm ≠ .faulted)
    (hres : ResultOk s) (he : e ≠ .bufferContract) (hn : e = .rngFailure → n ≤ 8) :
    inv (raise e n s) = true := by
  refine (inv_iff _).mpr ⟨hwf, ?_⟩
  cases e
  case bufferContract => exact absurd rfl he
  case rngFailure => simpa [registersOk, Err.status, statusLegal, statusFatal, ResultOk, hf, hn rfl] using hres
  all_goals simpa [registersOk, Err.status, statusLegal, statusFatal, ResultOk, hf] using hres

theorem inv_raiseFatal {n : Nat} {s : State} (hwf : storagesWf s = true) (hres : ResultOk s) :
    inv (raiseFatal .bufferContract n s) = true := by
  exact (inv_iff _).mpr ⟨hwf, by simpa [registersOk, Err.status, statusLegal, statusFatal, ResultOk] using hres⟩

theorem inv_takeReset {s : State} (hwf : storagesWf s = true) : inv (takeReset s) = true := by
  obtain ⟨hkey, hsalt, hdata⟩ := (storagesWf_iff s).mp hwf
  refine (inv_iff _).mpr ⟨?_, ?_⟩
  · simp [storagesWf, hkey, hsalt, wf_dataAfterReset hdata]
  · simp [registersOk, statusLegal, statusFatal]

/-! ## The invariant after a step -/

/-- Outside `Faulted` every command's own rule keeps the invariant. -/
theorem inv_commandBody {i : Instr} {s : State} (hinv : inv s = true) (hf : s.fsm ≠ .faulted) :
    inv (commandBody i s) = true := by
  have hwf : storagesWf s = true := ((inv_iff s).mp hinv).1
  have hres : ResultOk s := resultOk_of_inv hinv
  rcases commandBody_cases i s with ⟨t, _, h⟩ | ⟨e, n, he, hr, h⟩ | ⟨n, _, _, h⟩ | ⟨_, h⟩ | ⟨n, bs, _, h⟩ | ⟨_, _, h⟩ |
    ⟨n, _, hn, h⟩ | ⟨n, iv, rest, bs, _, h⟩ <;> rw [h]
  · exact inv_complete hwf (by simp) hres
  · exact inv_raise hwf hf hres he fun hrng => absurd hrng hr
  · exact inv_raiseFatal hwf hres
  · exact inv_complete hwf hf (.inr rfl)
  · exact inv_complete (storagesWf_memWrite_dst hwf _ _) (by simpa using hf) (by simpa [ResultOk] using hres)
  · exact hinv
  · exact inv_raise (s := { s with rng := s.rng.tail }) hwf hf hres (by decide) fun _ => hn
  · exact inv_complete (storagesWf_memWrite_dst (s := { s with iv := iv, rng := rest }) hwf _ _) (by simpa using hf)
      (by simpa [ResultOk] using hres)

theorem inv_exec {i : Instr} {s t : State} (hinv : inv s = true) (h : exec i s = .next t) : inv t = true := by
  rcases exec_cases h with ⟨_, rfl⟩ | ⟨_, hf, rfl⟩ | ⟨hf, _, rfl⟩
  · exact hinv
  · exact inv_raise ((inv_iff s).mp hinv).1 (by simp [hf]) (resultOk_of_inv hinv) (by decide) (by simp)
  · exact inv_commandBody hinv hf

theorem inv_takeHostMove {s : State} (hinv : inv s = true) (ha : hostActs s = true) : inv (takeHostMove s) = true := by
  have hwf : storagesWf s = true := ((inv_iff s).mp hinv).1
  rcases takeHostMove_cases ha with ⟨rest, _, h⟩ | ⟨hfsm, _, _, hstatus, herrinfo, houtlen, hresult, hkeeps⟩
  · rw [h]
    exact inv_takeReset hwf
  · exact inv_of_same_registers hinv hfsm hstatus herrinfo houtlen hresult (hkeeps hwf)

/-- Settles O47: case by case over what a step can do, each way a command ends keeping the invariant. -/
theorem everyStepKeepsTheInvariant : Obligations.EveryStepKeepsTheInvariant := by
  intro s t hinv h
  rcases step_cases h with ⟨ha, rfl⟩ | ⟨_, c, i, _, _, h⟩ | ⟨_, c, k, _, _, h⟩ | ⟨_, _, rfl⟩
  · exact inv_takeHostMove hinv ha
  · exact inv_exec hinv h
  · rcases execReserved_cases h with ⟨_, rfl⟩ | ⟨hf, rfl⟩
    · exact hinv
    · exact inv_raise ((inv_iff s).mp hinv).1 hf (resultOk_of_inv hinv) (by decide) (by simp)
  · exact hinv

/-- Settles O46: at reset the registers are those of an OK command and the core is in `Unkeyed`. -/
theorem invariantHoldsAtReset : Obligations.InvariantHoldsAtReset :=
  ⟨by decide, fun _ hkeyed => absurd rfl hkeyed⟩

end Sys2Proof.Proofs
end

section
/-! PROOF. What every step does to STATE, the tables and the IV register (10_state.md rules R11 to R15, R22,
42_cipher_commands.md rule R120, 60_exceptions.md rule R171). -/

namespace Sys2Proof.Proofs

open Sys2Proof.Machine Sys2Proof.Safety Sys2Proof.Claims

/-! ## A failed command -/

/-- Only BUFFER_CONTRACT has the fatal code 0x81 (60_exceptions.md rule R170). -/
theorem errStatus_ne_fatal {e : Err} (he : e ≠ .bufferContract) : e.status ≠ 0x81 := by
  cases e
  case bufferContract => exact absurd rfl he
  all_goals decide

/-- Settles O41: of the ways a command ends, only an error and the wait for the RNG leave a STATUS other than 0x00, and
the wait does not end the command. -/
theorem failedCommandWritesOnlyItsStatus : Obligations.FailedCommandWritesOnlyItsStatus := by
  intro s t i c hcmd hf h hended hfailed
  rcases exec_cases h with ⟨hfaulted, _⟩ | ⟨_, _, rfl⟩ | ⟨_, _, rfl⟩
  · exact absurd hfaulted hf
  · exact ⟨rfl, .inl rfl, .inl ⟨errStatus_ne_fatal (e := .notKeyed) nofun, rfl⟩⟩
  · rcases commandBody_cases i s with ⟨T, _, h⟩ | ⟨e, n, he, _, h⟩ | ⟨n, _, _, h⟩ | ⟨_, h⟩ | ⟨n, bs, _, h⟩ | ⟨_, _, h⟩ |
      ⟨n, hi, _, h⟩ | ⟨n, iv, rest, bs, _, h⟩ <;> rw [h] at hended hfailed ⊢
    · exact absurd rfl hfailed
    · exact ⟨rfl, .inl rfl, .inl ⟨errStatus_ne_fatal he, rfl⟩⟩
    · exact ⟨rfl, .inl rfl, .inr ⟨rfl, rfl⟩⟩
    · exact absurd rfl hfailed
    · exact absurd rfl hfailed
    · simp [hcmd] at hended
    · exact ⟨rfl, .inr ⟨hi, rfl, rfl⟩, .inl ⟨errStatus_ne_fatal (e := .rngFailure) nofun, rfl⟩⟩
    · exact absurd rfl hfailed

/-! ## STATE, the tables and the IV register -/

/-- The core after a command that neither builds tables nor breaks the buffer contract: STATE and the tables stay, and
the IV register changes only in a CBC command that completes in `Keyed`. -/
def KeepsTheCore (i : Instr) (s t : State) : Prop :=
  t.fsm = s.fsm ∧ t.tab = s.tab ∧
    (t.iv ≠ s.iv → s.fsm = .keyed ∧ t.status = 0x00 ∧ (i = .enccbc ∨ i = .deccbc))

/-- What a command can do to the core. -/
theorem exec_core_cases {i : Instr} {s t : State} (h : exec i s = .next t) :
    (s.fsm ≠ .faulted ∧ ∃ T, Builds i s T ∧ t = construct T s) ∨
      (s.fsm = .keyed ∧ (i = .encb ∨ i = .decb) ∧ (s.srclen ≠ 8 ∨ s.dstlen ≠ 8) ∧
        ∃ n, t = raiseFatal .bufferContract n s) ∨
      KeepsTheCore i s t := by
  rcases exec_cases h with ⟨_, rfl⟩ | ⟨_, _, rfl⟩ | ⟨hf, hkey, rfl⟩
  · exact .inr (.inr ⟨rfl, rfl, absurd rfl⟩)
  · exact .inr (.inr ⟨rfl, rfl, absurd rfl⟩)
  · rcases commandBody_cases i s with ⟨T, hb, h⟩ | ⟨e, n, _, _, h⟩ | ⟨n, hi, hlen, h⟩ | ⟨_, h⟩ | ⟨n, bs, _, h⟩ |
      ⟨_, _, h⟩ | ⟨n, _, _, h⟩ | ⟨n, iv, rest, bs, hi, h⟩ <;> rw [h]
    · exact .inl ⟨hf, T, hb, rfl⟩
    · exact .inr (.inr ⟨rfl, rfl, absurd rfl⟩)
    · exact .inr (.inl ⟨hkey (by rcases hi with rfl | rfl <;> rfl), hi, hlen, n, rfl⟩)
    · exact .inr (.inr ⟨rfl, rfl, absurd rfl⟩)
    · exact .inr (.inr ⟨rfl, rfl, absurd rfl⟩)
    · exact .inr (.inr ⟨rfl, rfl, absurd rfl⟩)
    · exact .inr (.inr ⟨rfl, rfl, absurd rfl⟩)
    · exact .inr (.inr ⟨rfl, rfl, fun _ => ⟨hkey (by rcases hi with rfl | rfl <;> rfl), rfl, hi⟩⟩)

theorem execReserved_core {k : Byte} {s t : State} (h : execReserved k s = .next t) :
    t.fsm = s.fsm ∧ t.tab = s.tab ∧ t.iv = s.iv := by
  rcases execReserved_cases h with ⟨_, rfl⟩ | ⟨_, rfl⟩ <;> exact ⟨rfl, rfl, rfl⟩

theorem cmd_of_instr {s : State} {i a b : Instr} (hcode : s.cmd = some (encode i)) (hi : i = a ∨ i = b) :
    s.cmd = some (encode a) ∨ s.cmd = some (encode b) := by
  rcases hi with rfl | rfl
  · exact .inl hcode
  · exact .inr hcode

/-- What a step can do to the core: a reset, a construction, a breach of the buffer contract, or nothing but a change of
the IV register by a CBC command. -/
theorem step_core_cases {s t : State} (h : step s = .next t) :
    (t.fsm = .unkeyed ∧ ∃ rest, s.host = .reset :: rest) ∨
      (∃ T, Constructs s T ∧ t = construct T s) ∨
      (s.fsm = .keyed ∧ (s.cmd = some 0x04 ∨ s.cmd = some 0x05) ∧ (s.srclen ≠ 8 ∨ s.dstlen ≠ 8) ∧
        ∃ n, t = raiseFatal .bufferContract n s) ∨
      (t.fsm = s.fsm ∧ t.tab = s.tab ∧
        (t.iv ≠ s.iv → s.fsm = .keyed ∧ t.status = 0x00 ∧ (s.cmd = some 0x06 ∨ s.cmd = some 0x07))) := by
  rcases step_cases h with ⟨ha, rfl⟩ | ⟨ha, c, i, hcmd, hdecode, hexec⟩ | ⟨_, c, k, _, _, hexec⟩ | ⟨_, _, rfl⟩
  · rcases takeHostMove_cases ha with ⟨rest, hhost, hmove⟩ | ⟨hfsm, htab, hiv, _⟩
    · exact .inl ⟨by rw [hmove]; rfl, rest, hhost⟩
    · exact .inr (.inr (.inr ⟨hfsm, htab, absurd hiv⟩))
  · have hcode : s.cmd = some (encode i) := hcmd.trans (congrArg some (eq_encode_of_decode hdecode))
    rcases exec_core_cases hexec with ⟨hf, T, hb, ht⟩ | ⟨hkeyed, hi, hlen, ht⟩ | ⟨hfsm, htab, hiv⟩
    · exact .inr (.inl ⟨T, ⟨hf, noReset_of_hostActs ha, i, hcode, hb⟩, ht⟩)
    · exact .inr (.inr (.inl ⟨hkeyed, cmd_of_instr hcode hi, hlen, ht⟩))
    · refine .inr (.inr (.inr ⟨hfsm, htab, fun hne => ?_⟩))
      obtain ⟨hkeyed, hok, hi⟩ := hiv hne
      exact ⟨hkeyed, hok, cmd_of_instr hcode hi⟩
  · obtain ⟨hfsm, htab, hiv⟩ := execReserved_core hexec
    exact .inr (.inr (.inr ⟨hfsm, htab, absurd hiv⟩))
  · exact .inr (.inr (.inr ⟨rfl, rfl, absurd rfl⟩))

/-- Only the codes of NEWC and NEWSC construct (42_cipher_commands.md rules R121, R122). -/
theorem cmd_of_constructs {s : State} {T : Tables} (h : Constructs s T) : s.cmd = some 0x01 ∨ s.cmd = some 0x02 := by
  obtain ⟨_, _, i, hcode, ⟨_, _, rfl | ⟨rfl, _⟩, _⟩ | ⟨_, _, rfl, _⟩⟩ := h
  · exact .inl hcode
  · exact .inr hcode
  · exact .inr hcode

/-- Settles O43: a construction changes STATE only out of `Unkeyed`, since it is refused in `Faulted`. -/
theorem stateChangesOnlyAsTheTableSays : Obligations.StateChangesOnlyAsTheTableSays := by
  intro s t h hne
  rcases step_core_cases h with hreset | ⟨T, hc, rfl⟩ | ⟨hkeyed, hcmd, hlen, n, rfl⟩ | ⟨hfsm, _⟩
  · exact .inl hreset
  · have hunkeyed : s.fsm = .unkeyed := by
      cases hs : s.fsm with
      | unkeyed => rfl
      | keyed => exact absurd hs.symm hne
      | faulted => exact absurd hs hc.1
    exact .inr (.inl ⟨hunkeyed, rfl, rfl, cmd_of_constructs hc⟩)
  · exact .inr (.inr ⟨hkeyed, rfl, rfl, hcmd, hlen⟩)
  · exact absurd hfsm hne

/-- Settles O44. -/
theorem onlyConstructionsWriteTheTables : Obligations.OnlyConstructionsWriteTheTables := by
  intro s t h hne
  rcases step_core_cases h with ⟨_, hreset⟩ | ⟨T, hc, rfl⟩ | ⟨_, _, _, n, rfl⟩ | ⟨_, htab, _⟩
  · exact .inl hreset
  · exact .inr ⟨hc.1, rfl, rfl, cmd_of_constructs hc⟩
  · exact absurd rfl hne
  · exact absurd htab hne

/-- Settles O45. -/
theorem onlyCbcCommandsWriteTheIv : Obligations.OnlyCbcCommandsWriteTheIv := by
  intro s t h hne
  rcases step_core_cases h with ⟨_, hreset⟩ | ⟨T, _, rfl⟩ | ⟨_, _, _, n, rfl⟩ | ⟨_, _, hiv⟩
  · exact .inl hreset
  · exact absurd rfl hne
  · exact absurd rfl hne
  · exact .inr (hiv hne)

/-! ## Which construction built the tables -/

/-- Settles O51: a step that constructs does nothing else, and of the other steps outside `Unkeyed` none writes the
tables. -/
theorem everyStepKeepsTheTablesOrBuildsThemFromItsOperands :
    Obligations.EveryStepKeepsTheTablesOrBuildsThemFromItsOperands := by
  intro s t h hkeyed
  by_cases hc : ∃ T, Constructs s T
  · obtain ⟨T, hT⟩ := hc
    have ht : construct T s = t := Host.Outcome.next.inj ((step_of_constructs hT).symm.trans h)
    exact .inl (ht ▸ hT)
  · have hnone : ∀ T, ¬Constructs s T := fun T hT => hc ⟨T, hT⟩
    rcases step_core_cases h with ⟨hunkeyed, _⟩ | ⟨T, hT, _⟩ | ⟨hs, _, _, n, rfl⟩ | ⟨hfsm, htab, _⟩
    · exact absurd hunkeyed hkeyed
    · exact absurd hT (hnone T)
    · exact .inr ⟨by simp [hs], rfl, hnone⟩
    · exact .inr ⟨hfsm ▸ hkeyed, htab, hnone⟩

theorem constructedWithin_of_constructs {n : Nat} {s : State} {T : Tables} (hn : s.saltlen ≤ n) (h : Constructs s T) :
    ConstructedWithin n T := by
  obtain ⟨_, _, i, _, ⟨hmin, hmax, _, hT⟩ | ⟨hkey, hsalt, _, hT⟩⟩ := h
  · exact .inl ⟨_, _, hmin, hmax, hT⟩
  · exact .inr ⟨_, _, _, _, hkey, hsalt, hn, hT⟩

/-- Settles O48: by O51 the step built the tables from its own operands or kept them from a state outside `Unkeyed`. -/
theorem everyStepKeepsTheTablesConstructed : Obligations.EveryStepKeepsTheTablesConstructed := by
  intro n s t hn hs h hkeyed
  rcases everyStepKeepsTheTablesOrBuildsThemFromItsOperands s t h hkeyed with hc | ⟨hskeyed, htab, _⟩
  · exact constructedWithin_of_constructs hn hc
  · exact htab ▸ hs hskeyed

/-- Settles O52, by induction on the length of the run: its last step constructs, or the tables are those of the run
before it. -/
theorem tablesAreThoseOfTheLastConstruction : Obligations.TablesAreThoseOfTheLastConstruction := by
  intro x n h0 hrun hn
  induction n with
  | zero => exact absurd h0 hn
  | succ n ih =>
    rcases everyStepKeepsTheTablesOrBuildsThemFromItsOperands _ _ (hrun n (by omega)) hn with
      hc | ⟨hkeyed, htab, hnone⟩
    · refine ⟨n, by omega, hc, fun k hk hle => ?_⟩
      obtain rfl : k = n + 1 := by omega
      exact ⟨hn, rfl, fun hlt => absurd hlt (Nat.lt_irrefl _)⟩
    · obtain ⟨m, hm, hc, hafter⟩ := ih (fun k hk => hrun k (by omega)) hkeyed
      refine ⟨m, by omega, htab ▸ hc, fun k hk hle => ?_⟩
      rcases Nat.le_succ_iff.mp hle with hle' | rfl
      · obtain ⟨hkeyed', htab', hnone'⟩ := hafter k hk hle'
        refine ⟨hkeyed', htab'.trans htab.symm, fun _ => ?_⟩
        rcases Nat.lt_or_eq_of_le hle' with hlt | rfl
        · exact hnone' hlt
        · exact hnone
      · exact ⟨hn, rfl, fun hlt => absurd hlt (Nat.lt_irrefl _)⟩

end Sys2Proof.Proofs
end

section
/-! PROOF. What the host cannot see (10_state.md rules R11 to R13, R21). -/

namespace Sys2Proof.Proofs

open Sys2Proof.Machine Sys2Proof.Safety

/-- The state with other contents of the tables and the IV register. -/
def withHidden (s : State) (T : Tables) (v : Block) : State := { s with tab := T, iv := v }

/-- `SameToHost` as a choice of the hidden contents. -/
theorem sameToHost_iff (s s' : State) :
    SameToHost s s' ↔ ∃ T v, s' = withHidden s T v ∧ (s.fsm = .keyed → T = s.tab) := by
  constructor
  · rintro ⟨heq, htab⟩
    exact ⟨s'.tab, s'.iv, heq, htab⟩
  · rintro ⟨T, v, rfl, htab⟩
    exact ⟨rfl, htab⟩

theorem sameToHost_refl (s : State) : SameToHost s s := ⟨rfl, fun _ => rfl⟩

/-- A move of the host writes nothing that depends on the hidden contents. -/
theorem applyMove_withHidden (m : HostMove) (s : State) {T : Tables} {v : Block} (htab : s.fsm = .keyed → T = s.tab) :
    SameToHost (applyMove m s) (applyMove m (withHidden s T v)) := by
  cases m with
  | writeBuf b off bs => cases b <;> exact ⟨rfl, htab⟩
  | writeLen r n => cases r <;> exact ⟨rfl, htab⟩
  | readReg r =>
    cases r with
    | cmd => exact ⟨rfl, htab⟩
    | len l => cases l <;> exact ⟨rfl, htab⟩
    | ro o => cases o <;> exact ⟨rfl, htab⟩
  | reset => exact sameToHost_refl _
  | writeReadOnly r n => exact ⟨rfl, htab⟩
  | writeCmd c => exact ⟨rfl, htab⟩
  | readDst i => exact ⟨rfl, htab⟩
  | await => exact ⟨rfl, htab⟩

theorem takeHostMove_withHidden (s : State) {T : Tables} {v : Block} (htab : s.fsm = .keyed → T = s.tab) :
    SameToHost (takeHostMove s) (takeHostMove (withHidden s T v)) := by
  have hhost : (withHidden s T v).host = s.host := rfl
  unfold takeHostMove
  rw [hhost]
  cases s.host with
  | nil => exact ⟨rfl, htab⟩
  | cons m rest => exact applyMove_withHidden m { s with host := rest } htab

/-- Two states related by `SameToHost` take the same branch of a test on what the host can see. -/
theorem sameToHost_ite {c : Prop} [Decidable c] {a a' b b' : State} (hthen : SameToHost a a') (helse : SameToHost b b') :
    SameToHost (if c then a else b) (if c then a' else b') := by
  split
  · exact hthen
  · exact helse

/-- In `Keyed`, where the hidden contents are the IV register alone, ENCB and DECB do not read them. -/
theorem blockBody_withHidden (f : Tables → Block → Block) (s : State) (v : Block) :
    SameToHost (blockBody f s) (blockBody f (withHidden s s.tab v)) :=
  sameToHost_ite ⟨rfl, fun _ => rfl⟩ (sameToHost_ite ⟨rfl, fun _ => rfl⟩ ⟨rfl, fun _ => rfl⟩)

/-- NEWC's own rule reads neither the tables nor the IV register. -/
theorem newcBody_withHidden (s : State) {T : Tables} {v : Block} (htab : s.fsm = .keyed → T = s.tab) :
    SameToHost (newcBody s) (newcBody (withHidden s T v)) :=
  sameToHost_ite ⟨rfl, fun _ => rfl⟩ ⟨rfl, htab⟩

theorem newscBody_withHidden (s : State) {T : Tables} {v : Block} (htab : s.fsm = .keyed → T = s.tab) :
    SameToHost (newscBody s) (newscBody (withHidden s T v)) :=
  sameToHost_ite (newcBody_withHidden s htab) (sameToHost_ite ⟨rfl, htab⟩ ⟨rfl, fun _ => rfl⟩)

/-- ENCCBC writes the IV register before it reads it (43_cbc.md rules R151, R153). -/
theorem enccbcBody_withHidden (s : State) (v : Block) :
    SameToHost (enccbcBody s) (enccbcBody (withHidden s s.tab v)) := by
  have hrng : (withHidden s s.tab v).rng = s.rng := rfl
  unfold enccbcBody
  rw [hrng]
  cases s.rng with
  | nil => exact ⟨rfl, fun _ => rfl⟩
  | cons a rest => exact sameToHost_ite ⟨rfl, fun _ => rfl⟩ ⟨rfl, fun _ => rfl⟩

/-- DECCBC takes its first chaining value from `SRC` (43_cbc.md rule R161). -/
theorem deccbcBody_withHidden (s : State) (v : Block) :
    SameToHost (deccbcBody s) (deccbcBody (withHidden s s.tab v)) :=
  sameToHost_ite ⟨rfl, fun _ => rfl⟩ ⟨rfl, fun _ => rfl⟩

/-- No command's own rule lets the hidden contents out; one that needs a key runs in `Keyed` only. -/
theorem commandBody_withHidden (i : Instr) (s : State) {T : Tables} {v : Block} (htab : s.fsm = .keyed → T = s.tab)
    (hkey : commandNeedsKey i = true → s.fsm = .keyed) :
    SameToHost (commandBody i s) (commandBody i (withHidden s T v)) := by
  cases i
  case newc => exact newcBody_withHidden s htab
  case newsc => exact newscBody_withHidden s htab
  case blksz => exact ⟨rfl, htab⟩
  all_goals obtain rfl := htab (hkey rfl)
  case encb => exact blockBody_withHidden encryptBlock s v
  case decb => exact blockBody_withHidden decryptBlock s v
  case enccbc => exact enccbcBody_withHidden s v
  case deccbc => exact deccbcBody_withHidden s v

/-- Outside `Faulted`, and in `Keyed` if it needs a key, a command runs its own rule (60_exceptions.md rule R179). -/
theorem exec_eq_commandBody_of_ready {i : Instr} {s : State} (hf : s.fsm ≠ .faulted)
    (hkey : commandNeedsKey i = true → s.fsm = .keyed) : exec i s = .next (commandBody i s) := by
  cases hneeds : commandNeedsKey i with
  | false => exact exec_eq_commandBody hneeds hf
  | true => rw [exec_eq_inFrame, inFrame_keyed (hkey hneeds)]

theorem exec_withHidden {i : Instr} {s t : State} {T : Tables} {v : Block} (htab : s.fsm = .keyed → T = s.tab)
    (h : exec i s = .next t) : ∃ t', exec i (withHidden s T v) = .next t' ∧ SameToHost t t' := by
  rcases exec_cases h with ⟨hf, rfl⟩ | ⟨hneeds, hunkeyed, rfl⟩ | ⟨hf, hkey, rfl⟩
  · exact ⟨_, (exec_eq_inFrame ..).trans (inFrame_faulted hf), rfl, htab⟩
  · refine ⟨raise .notKeyed 0 (withHidden s T v), (exec_eq_inFrame ..).trans ?_, rfl, htab⟩
    rw [hneeds]
    exact inFrame_notKeyed hunkeyed
  · exact ⟨_, exec_eq_commandBody_of_ready hf hkey, commandBody_withHidden i s htab hkey⟩

theorem execReserved_withHidden {k : Byte} {s t : State} {T : Tables} {v : Block} (htab : s.fsm = .keyed → T = s.tab)
    (h : execReserved k s = .next t) : ∃ t', execReserved k (withHidden s T v) = .next t' ∧ SameToHost t t' := by
  rcases execReserved_cases h with ⟨hf, rfl⟩ | ⟨hf, rfl⟩
  · exact ⟨_, if_pos hf, rfl, htab⟩
  · exact ⟨_, execReserved_open hf, rfl, htab⟩

/-- Settles O50: both states take the same one of the cases of a step, and in each the hidden contents stay hidden. -/
theorem hiddenStateNeverReachesTheHost : Obligations.HiddenStateNeverReachesTheHost := by
  intro s s' t hsame h
  obtain ⟨T, v, rfl, htab⟩ := (sameToHost_iff s s').mp hsame
  rcases step_cases h with ⟨ha, rfl⟩ | ⟨ha, c, i, hcmd, hdecode, hexec⟩ | ⟨ha, c, k, hcmd, hdecode, hexec⟩ |
    ⟨ha, hidle, rfl⟩
  · exact ⟨_, if_pos ha, takeHostMove_withHidden s htab⟩
  · obtain ⟨t', ht', hsame'⟩ := exec_withHidden (v := v) htab hexec
    refine ⟨t', ?_, hsame'⟩
    rw [step_executing (s := withHidden s T v) hcmd ha, runCode, hdecode]
    exact ht'
  · obtain ⟨t', ht', hsame'⟩ := execReserved_withHidden (v := v) htab hexec
    refine ⟨t', ?_, hsame'⟩
    rw [step_executing (s := withHidden s T v) hcmd ha, runCode, hdecode]
    exact ht'
  · refine ⟨withHidden t T v, ?_, rfl, htab⟩
    have hidle' : (withHidden t T v).cmd = none := hidle
    have ha' : hostActs (withHidden t T v) = false := ha
    simp [step, ha', hidle']

end Sys2Proof.Proofs
end
